-- ==== Sys2Proof/Word.lean ====
section
/-! DEFINITION. The types the spec computes with: characters, digits of a cell choice, coordinate
operands, micro-degrees, the grid index, and the rectangle of the Bounds Window. Types only. -/

namespace Sys2Proof

/-- A character: an unsigned 8-bit value (`CHAR_W` = 8; 20_memory R35, 00_scope section 5.2). -/
abbrev Ch := BitVec 8

/-- A row or a column index, `0 .. 3` (10_state R18, 30_encoding R49). -/
abbrev Digit := Fin 4

/-- The grid index `GIDX`: ten 4-bit digits, level 1 in bits 39:36 (30_encoding R50). -/
abbrev GridIndex := BitVec 40

/-- A rendered coordinate in micro-degrees, an unsigned 27-bit value (30_encoding R60). -/
abbrev MicroDeg := BitVec 27

/-- The bits of one coordinate operand on the command port, as the number they spell: the port is as
wide as `COORD_FORMAT` is (30_encoding R53, 64 bits by default), which a command does not know
(notes/assumptions/3). -/
abbrev PortBits := Nat

/-- `Num`, a coordinate operand as the rules see it (00_scope R4): a finite real number, which is a
rational, or anything else the port format can carry. -/
inductive CoordNum where
  | fin (q : Rat)
  | nonfinite
deriving DecidableEq, Repr, Inhabited

/-- A rectangle in degrees: the Bounding Region and the Bounds Window (10_state R10, R14). The
edges are exact rationals (00_scope R1). -/
structure Window where
  minLat : Rat
  maxLat : Rat
  minLon : Rat
  maxLon : Rat
deriving DecidableEq, Repr

end Sys2Proof
end

