-- ==== Sys2Proof/Config.lean ====
section
/-! DEFINITION. What an implementation fixes once (00_scope R9): the content of the Symbol Grid and
the coordinate port format. A state carries one `Config` and no step writes it, so a statement
about every state holds for every value of these parameters. -/

namespace Sys2Proof

/-- The parameter `SYMBOL_GRID`: the sixteen characters, listed row by row, so that the symbol of
`(row, col)` stands at index `4*row + col` (30_encoding R47, R49). What the spec asks of it is
`gridAdmissible` in Machine/Operands.lean. -/
abbrev SymbolGrid := Vector Ch 16

/-- The parameter `COORD_FORMAT` (30_encoding R58): the default, IEEE 754 binary64, or the format
of some platform, of any width, of which nothing is known but that it is a function of the bits on
the port. -/
inductive CoordFormat where
  | binary64
  | platform (width : Nat)
deriving DecidableEq, Repr

/-- The width of a coordinate operand on the port (30_encoding R53, R58). -/
def CoordFormat.width : CoordFormat → Nat
  | .binary64 => 64
  | .platform width => width

/-- The function `val` of a platform's own format, for each width of its port: uninterpreted, so no
proof can rest on it (notes/assumptions/3). -/
opaque platformVal : (width : Nat) → BitVec width → CoordNum

/-- The parameters of one unit. `IFC_PROTOCOL`, `LATENCY` and `BUS_MAP` are read by no rule
(00_scope R9) and have no field; `CODE_IN_MAX` is taken as unbounded (notes/assumptions/5). -/
structure Config where
  grid : SymbolGrid
  coordFormat : CoordFormat
deriving DecidableEq, Repr

end Sys2Proof
end

