-- ==== Sys2Proof/Machine/Binary64.lean ====
section
/-! DEFINITION. The coordinate port format: the function `val` of `COORD_FORMAT` (30_encoding R58),
and, for the default binary64, the bits that spell a value. -/

namespace Sys2Proof

/-- The magnitude of a binary64 datum: significand `m` at biased exponent `e`, that is
`m * 2^(e-1075)` (30_encoding R58, third line; the second line is `m = f`, `e = 1`). -/
def binary64Magnitude (m e : Nat) : Rat := mkRat (m * 2 ^ e : Nat) (2 ^ 1075)

/-- `val` of binary64 (30_encoding R58): `s = bits[63]`, `e = bits[62:52]`, `f = bits[51:0]`. -/
def binary64Val (bits : BitVec 64) : CoordNum :=
  let s := bits.getLsbD 63
  let e := (bits.extractLsb' 52 11).toNat
  let f := (bits.extractLsb' 0 52).toNat
  if e = 2047 then .nonfinite
  else
    let a := if e = 0 then binary64Magnitude f 1 else binary64Magnitude (2 ^ 52 + f) e
    .fin (if s then -a else a)

/-- The function `val` of a port format, on the bits of its own width (00_scope R4, R9). -/
def CoordFormat.val : (fmt : CoordFormat) → BitVec fmt.width → CoordNum
  | .binary64, bits => binary64Val bits
  | .platform width, bits => platformVal width bits

/-- What a unit with the port format `fmt` reads from a coordinate operand: `val` of the bits its port
has; a wider operand has no further lines to stand on (notes/assumptions/3). -/
def coordVal (fmt : CoordFormat) (bits : PortBits) : CoordNum := fmt.val (BitVec.ofNat fmt.width bits)

/-- `|q|` in units of `2^-1074`, rounded down: exact when `q` is a binary64 value. -/
def binary64Units (q : Rat) : Nat := q.num.natAbs * 2 ^ 1074 / q.den

/-- Whether `|q|` is a whole number of units of `2^-1074` that a binary64 significand and exponent
can spell: at most 53 significant bits, and a biased exponent below 2047. -/
def binary64Exact (q : Rat) : Bool :=
  let n := binary64Units q
  n * q.den == q.num.natAbs * 2 ^ 1074 &&
    (n < 2 ^ 52 || (n % 2 ^ (n.log2 - 52) == 0 && n.log2 - 51 < 2047))

/-- Whether a `CoordNum` is a value the default port format carries. -/
def CoordNum.representable : CoordNum → Bool
  | .nonfinite => true
  | .fin q => binary64Exact q

/-- The bits that spell a `CoordNum` in binary64, the inverse of 30_encoding R58's table: zero and the
subnormals have `e = 0`; a positive zero is written for `fin 0`, and the quiet NaN of
95_test_vectors for `nonfinite`, of which the response does not depend (93 U11). -/
def binary64Bits : CoordNum → BitVec 64
  | .nonfinite => 0x7FF8000000000000
  | .fin q =>
    let n := binary64Units q
    let s : BitVec 1 := if q.num < 0 then 1 else 0
    if n < 2 ^ 52 then s ++ (0 : BitVec 11) ++ BitVec.ofNat 52 n
    else
      let e := n.log2 - 51
      s ++ BitVec.ofNat 11 e ++ BitVec.ofNat 52 (n / 2 ^ (n.log2 - 52) - 2 ^ 52)

end Sys2Proof
end

