-- ==== Sys2Proof/Machine/Constants.lean ====
section
/-! DEFINITION. The constants of the hardware (00_scope R8, 10_state R10 to R13) and the defaults of
its parameters (30_encoding R47, R58). -/

namespace Sys2Proof

/-- `BR`, the Bounding Region (10_state R10). -/
def BR : Window where
  minLat := 5 / 2
  maxLat := 77 / 2
  minLon := 127 / 2
  maxLon := 199 / 2

/-- `SEP`, the separator `'-'` (10_state R13, 30_encoding R51). -/
def SEP : Ch := 0x2D

/-- `LEVELS`, the number of refinement levels (00_scope R8). -/
def LEVELS : Nat := 10

/-- `CODE_SYMS`, the number of symbols of a code (00_scope R8). -/
def CODE_SYMS : Nat := 10

/-- `G_DEFAULT`, the default of `SYMBOL_GRID` (30_encoding R47, R49). The spec marks it as general
knowledge, not in its source (93_implementation_defined G1; notes/assumptions/2). -/
def gDefault : SymbolGrid := #v[
  0x46, 0x43, 0x39, 0x38,   -- row 0 (north):  F C 9 8
  0x4A, 0x33, 0x32, 0x37,   -- row 1:          J 3 2 7
  0x4B, 0x34, 0x35, 0x36,   -- row 2:          K 4 5 6
  0x4C, 0x4D, 0x50, 0x54]   -- row 3 (south):  L M P T

/-- The parameters at their defaults (00_scope R9). -/
def Config.default : Config where
  grid := gDefault
  coordFormat := .binary64

end Sys2Proof
end

