-- ==== Sys2Proof/Syntax.lean ====
section
/-! DEFINITION. The operations, one constructor per row of spec/opcode_table.json, and the command
record that carries one on the port. -/

namespace Sys2Proof

/-- The operation set (30_encoding R54), each with the operands of its entry point (R64). An
operand a command does not use (R65) is no operand of its operation. -/
inductive Instr where
  /-- `ENCODE lat, lon, hyph` -/
  | encode (lat lon : CoordNum) (hyph : Bool)
  /-- `DECODE "code"` -/
  | decode (code : List Ch)
  /-- `ISVALID "code"` -/
  | isvalid (code : List Ch)
deriving DecidableEq, Repr

/-- The command record on the port (30_encoding R53): the 3-bit header `CMD[2:0]`, the two
coordinate operands as port bits, and the code operand in index order. `CODE_IN_LEN` is the length
of `codeIn`. The spec gives the record no byte layout (notes/assumptions/6). -/
structure Command where
  header : BitVec 3
  lat : PortBits
  lon : PortBits
  codeIn : List Ch
deriving DecidableEq, Repr

/-- Why the decoder refuses a command. -/
inductive DecodeError where
  /-- `OP = 3` is reserved (30_encoding R61). -/
  | reservedOp
deriving DecidableEq, Repr

end Sys2Proof
end

