-- ==== Sys2Proof/WellFormed.lean ====
section
/-! DEFINITION. Which operations a command record on a default (binary64) port can carry. -/

namespace Sys2Proof

/-- An ENCODE needs coordinates that the port format can carry; a code operand may be any finite
sequence of characters (30_encoding R63; `CODE_IN_MAX` unbounded, notes/assumptions/5). -/
def Instr.wellFormed : Instr → Bool
  | .encode lat lon _ => lat.representable && lon.representable
  | .decode _ => true
  | .isvalid _ => true

end Sys2Proof
end

