-- ==== Sys2Proof/Decode.lean ====
section
/-! DEFINITION. From a command record to an operation, total and refusing by name, and back. -/

namespace Sys2Proof

/-- `CMD[1:0] = OP` (30_encoding R53). -/
def Command.op (c : Command) : BitVec 2 := c.header.extractLsb' 0 2

/-- `CMD[2] = HYPH` (30_encoding R53). -/
def Command.hyph (c : Command) : Bool := c.header.getLsbD 2

/-- `OP = 0`, ENCODE (30_encoding R54). -/
def opEncode : BitVec 2 := 0

/-- `OP = 1`, DECODE (30_encoding R54). -/
def opDecode : BitVec 2 := 1

/-- `OP = 2`, ISVALID (30_encoding R54). -/
def opIsValid : BitVec 2 := 2

/-- The operation that the fields of an accepted command name (30_encoding R54). Each operation
takes the fields its row of R53 lists and ignores the others (R65); `OP = 3` is refused (R61). -/
def decodeFields (op : BitVec 2) (hyph : Bool) (lat lon : CoordNum) (codeIn : List Ch) :
    Except DecodeError Instr :=
  if op = opEncode then .ok (.encode lat lon hyph)
  else if op = opDecode then .ok (.decode codeIn)
  else if op = opIsValid then .ok (.isvalid codeIn)
  else .error .reservedOp

/-- The operation a command record names, its coordinates read by `val` of the port format
(30_encoding R53, R54, R58). -/
def decode (fmt : CoordFormat) (c : Command) : Except DecodeError Instr :=
  decodeFields c.op c.hyph (coordVal fmt c.lat) (coordVal fmt c.lon) c.codeIn

/-- The header of R53 from its two fields: `CMD[2] = HYPH`, `CMD[1:0] = OP`. -/
def headerOf (hyph : Bool) (op : BitVec 2) : BitVec 3 := (BitVec.ofBool hyph) ++ op

/-- The command record of an operation on a binary64 port (30_encoding R53, R54, R58). A field the
operation does not use may have any value (R65); here it is zero, or empty. -/
def encode : Instr → Command
  | .encode lat lon hyph =>
    { header := headerOf hyph opEncode, lat := (binary64Bits lat).toNat,
      lon := (binary64Bits lon).toNat, codeIn := [] }
  | .decode code => { header := headerOf false opDecode, lat := 0, lon := 0, codeIn := code }
  | .isvalid code => { header := headerOf false opIsValid, lat := 0, lon := 0, codeIn := code }

/-- The pseudo-form `ENCODE lat, lon` = `ENCODE lat, lon, 1` (30_encoding R64). -/
def Instr.encodeDefault (lat lon : CoordNum) : Instr := .encode lat lon true

/-- The command record whose header is the table's word `w` and whose operand fields are all
zero: both coordinates the port bits 0, and an empty code. -/
def tableCommand (w : Nat) : Command :=
  { header := BitVec.ofNat 3 w, lat := 0, lon := 0, codeIn := [] }

/-- The operation read from a row of spec/opcode_table.json: `w` is the header `CMD[2:0]`, padded
with zeros to `nbits` bits. A word with a bit above `CMD[2]` is no header and is refused. -/
def decodeTableWord (nbits w : Nat) : Option Instr :=
  if w < 8 ∧ 3 ≤ nbits then (decode .binary64 (tableCommand w)).toOption else none

end Sys2Proof
end

