-- ==== Sys2Proof/Machine/State.lean ====
section
/-! DEFINITION. The state of the unit (10_state), in the classes of that file's opening table, the
host's side of the two channels, the response, the reasons a step can stop, and reset. -/

namespace Sys2Proof.Machine

open Sys2Proof

/-- `RUN`, the unit's activity (10_state R22). -/
inductive Run where
  /-- no command accepted since reset or since the last response was taken -/
  | idle
  /-- a command accepted, no response yet -/
  | busy
  /-- a response is available -/
  | done
deriving DecidableEq, Repr

/-- The bound an `OutOfRangeError` names (30_encoding R57). -/
inductive Bound where
  | latNotFinite
  | lonNotFinite
  | latBelowMin
  | latAboveMax
  | lonBelowMin
  | lonAboveMax
deriving DecidableEq, Repr

/-- The three error kinds with their payloads (60_exceptions R130 to R133). -/
inductive ErrorKind where
  | outOfRange (bound : Bound)
  | format
  | invalidSymbol (ch : Ch)
deriving DecidableEq, Repr

/-- The result fields of a successful response, by operation (30_encoding R55). The length fields
of the port are the lengths of these sequences. -/
inductive Result where
  | encoded (codeOut : List Ch) (gidx : GridIndex)
  | decoded (latC lonC : Rat) (latStr lonStr : List Ch) (latUdeg lonUdeg : MicroDeg)
  | verdict (valid : Bool)
deriving DecidableEq, Repr

/-- A response (30_encoding R55): `ok` with the results of the operation, or the two fields of an
error, which has no result field (60_exceptions R136). -/
inductive Response where
  | ok (result : Result)
  | error (status : BitVec 2) (errinfo : BitVec 8)
deriving DecidableEq, Repr

/-- The operand latches (10_state R15, R16): the fields of the command being worked on. -/
structure Latches where
  op : BitVec 2
  hyph : Bool
  lat : CoordNum
  lon : CoordNum
  codeIn : List Ch
deriving DecidableEq, Repr

/-- The working registers (10_state R14, R16, R17, R19): `W`, `LEVEL`, `CANON`, `CODE_OUT`,
`GIDX`. -/
structure Working where
  window : Window
  level : Nat
  canon : List Ch
  codeOut : List Ch
  gidx : GridIndex
deriving DecidableEq, Repr

/-- The response registers (10_state R20, R21): `STATUS`, `ERRINFO`, the six results of DECODE and
the verdict of ISVALID. -/
structure Results where
  status : BitVec 2
  errinfo : BitVec 8
  latC : Rat
  lonC : Rat
  latStr : List Ch
  lonStr : List Ch
  latUdeg : MicroDeg
  lonUdeg : MicroDeg
  valid : Bool
deriving DecidableEq, Repr

/-- The host's side of the unit (notes/assumptions/7): the reset input, the commands it has yet to
present (oldest first, each presented when `RUN = IDLE`, 70_reset R153), whether it takes a
response that is available (70_reset R154), and the responses it has taken (oldest first). -/
structure HostSide where
  resetPin : Bool
  commands : List Command
  takes : Bool
  taken : List Response
deriving DecidableEq, Repr

/-- The whole state. `cfg` holds the parameters of the constants `GRID`, `INV` and of the port
format; `BR` and `SEP` are in Machine/Constants.lean; no step writes any of them (10_state R10 to
R13). -/
structure State where
  cfg : Config
  latch : Latches
  work : Working
  res : Results
  run : Run
  host : HostSide
deriving DecidableEq, Repr

/-- Nothing stops the unit with a fault: "No other error, fault or trap exists in the unit"
(60_exceptions R130). The three error kinds are responses, hence next states. -/
inductive Fault where
deriving DecidableEq, Repr

/-- Why a step has no meaning. -/
inductive Refusal where
  /-- An operation without a meaning in this model, by its mnemonic: raised by an arm of `exec` and
  by nothing else. Safe: the run stops. No arm raises it now. -/
  | notModelled (mnemonic : String)
  /-- The accepted command has `OP = 3`: "a model refuses such a command (gives it no meaning)"
  (30_encoding R61). Raised by `step` alone. Safe: the run stops. -/
  | reservedOperation
deriving DecidableEq, Repr

/-- The latches after reset: unspecified by the spec (10_state R25); all zero by this model's
choice (notes/assumptions/1, DESIGN CHOICE). -/
def Latches.reset : Latches where
  op := 0
  hyph := false
  lat := .fin 0
  lon := .fin 0
  codeIn := []

/-- The working registers after reset: unspecified by the spec (10_state R25); zero by this model's
choice, and `LEVEL = 1`, the least value R17 allows it (notes/assumptions/1, DESIGN CHOICE). -/
def Working.reset : Working where
  window := { minLat := 0, maxLat := 0, minLon := 0, maxLon := 0 }
  level := 1
  canon := []
  codeOut := []
  gidx := 0

/-- The response registers after reset: unspecified by the spec (10_state R25); zero by this
model's choice (notes/assumptions/1, DESIGN CHOICE). -/
def Results.reset : Results where
  status := 0
  errinfo := 0
  latC := 0
  lonC := 0
  latStr := []
  lonStr := []
  latUdeg := 0
  lonUdeg := 0
  valid := false

/-- The unit right after reset (10_state R25, 70_reset R150): `RUN = IDLE`, no response pending,
the parameters at their defaults (00_scope R9); no command waits, and the host takes responses as
they come (notes/assumptions/7). -/
def State.reset : State where
  cfg := Config.default
  latch := .reset
  work := .reset
  res := .reset
  run := .idle
  host := { resetPin := false, commands := [], takes := true, taken := [] }

end Sys2Proof.Machine
end

