-- ==== Sys2Proof/Machine/Flags.lean ====
section
/-! DEFINITION. The status flags: the numeric codes of `STATUS` and `ERRINFO` (30_encoding R56,
R57). -/

namespace Sys2Proof.Machine

open Sys2Proof

/-- `STATUS = 0`, `OK` (30_encoding R56). -/
def statusOk : BitVec 2 := 0

/-- The bound code of an `OutOfRangeError` (30_encoding R57). -/
def Bound.code : Bound → BitVec 3
  | .latNotFinite => 0
  | .lonNotFinite => 1
  | .latBelowMin => 2
  | .latAboveMax => 3
  | .lonBelowMin => 4
  | .lonAboveMax => 5

/-- The `STATUS` of an error (30_encoding R56). -/
def ErrorKind.status : ErrorKind → BitVec 2
  | .outOfRange _ => 1
  | .format => 2
  | .invalidSymbol _ => 3

/-- The `ERRINFO` of an error (30_encoding R57): the bound code in bits 2:0 with bits 7:3 zero;
nothing; the offending character. -/
def ErrorKind.info : ErrorKind → BitVec 8
  | .outOfRange b => b.code.setWidth 8
  | .format => 0
  | .invalidSymbol ch => ch

/-- The `STATUS` field of a response (30_encoding R55). -/
def Response.status : Response → BitVec 2
  | .ok _ => statusOk
  | .error st _ => st

/-- The `ERRINFO` field of a response (30_encoding R55, R57). -/
def Response.errinfo : Response → BitVec 8
  | .ok _ => 0
  | .error _ info => info

/-- The `CODE_OUT_LEN` field of an ENCODE result (30_encoding R55): 4 bits. -/
def Result.codeOutLen : Result → Option (BitVec 4)
  | .encoded codeOut _ => some (BitVec.ofNat 4 codeOut.length)
  | .decoded .. => none
  | .verdict _ => none

end Sys2Proof.Machine
end

