-- ==== Sys2Proof/Machine/Operands.lean ====
section
/-! DEFINITION. Operand forms: the tables `GRID` and `INV`, the canonical form of a code, the range
check of a coordinate, the integer primitives, and the six-decimal rendering. -/

namespace Sys2Proof.Machine

open Sys2Proof

/-! ### Integers and rounding (00_scope R2, R3, R5) -/

/-- `floor(q)`, the greatest integer not above `q` (00_scope R2). -/
def floorOf (q : Rat) : Int := q.floor

/-- `clamp(v, lo, hi)` (00_scope R3). -/
def clamp (v lo hi : Int) : Int := if v < lo then lo else if v > hi then hi else v

theorem clamp_digit_lt (v : Int) : (clamp v 0 3).toNat < 4 := by
  unfold clamp
  split
  · decide
  · split
    · decide
    · omega

/-- `clamp(v, 0, 3)` as a row or column index (40_encode R74). -/
def clampDigit (v : Int) : Digit := ⟨(clamp v 0 3).toNat, clamp_digit_lt v⟩

/-- `round6(q)` for `q ≥ 0`: the integer nearest to `q * 10^6`, the larger of two equally near
(00_scope R5). -/
def round6 (q : Rat) : Nat := (floorOf (q * 10 ^ 6 + 1 / 2)).toNat

/-! ### The Symbol Grid and its inverse -/

/-- A digit as a 4-bit value, `n = 4*row + col` (30_encoding R49). -/
def digitValue (row col : Digit) : Nat := 4 * row.val + col.val

theorem digitValue_lt (row col : Digit) : digitValue row col < 16 := by
  unfold digitValue; omega

/-- `GRID[row][col]` (20_memory R31). -/
def gridAt (g : SymbolGrid) (row col : Digit) : Ch := g[digitValue row col]'(digitValue_lt row col)

/-- The sixteen cells in the order of their digits (30_encoding R49). -/
def allCells : List (Digit × Digit) :=
  (List.finRange 4).flatMap fun row => (List.finRange 4).map fun col => (row, col)

/-- `INV[ch]`: the cell that holds `ch`, or `none` (10_state R12, 20_memory R32). -/
def inv (g : SymbolGrid) (ch : Ch) : Option (Digit × Digit) :=
  allCells.find? fun cell => gridAt g cell.1 cell.2 == ch

/-- Whether a character is a letter or a digit (30_encoding R47, item 4). -/
def alphanumeric (ch : Ch) : Bool :=
  (0x30 ≤ ch && ch ≤ 0x39) || (0x41 ≤ ch && ch ≤ 0x5A) || (0x61 ≤ ch && ch ≤ 0x7A)

/-- What the spec asks of `SYMBOL_GRID` (30_encoding R47): the characters are pairwise distinct,
none is `SEP`, none is `'A'`, and each is a letter or a digit. -/
def gridAdmissible (g : SymbolGrid) : Bool :=
  decide g.toList.Nodup && g.toList.all fun ch => ch != SEP && ch != 0x41 && alphanumeric ch

/-! ### The canonical form (30_encoding R52) -/

/-- `strip(s)`: every separator removed, the other characters kept in order (30_encoding R52). -/
def strip : List Ch → List Ch
  | [] => []
  | c :: s => if c = SEP then strip s else c :: strip s

/-- Whether every character is a key of `INV` (42_isvalid R105). -/
def allSymbols (g : SymbolGrid) (code : List Ch) : Bool := code.all fun ch => (inv g ch).isSome

/-! ### The range check of ENCODE (40_encode R71) -/

/-- The checks of 40_encode R71 in their order: the two coordinates as rationals, or the bound that
the first failing check names. -/
def checkCoordinates (lat lon : CoordNum) : Except Bound (Rat × Rat) :=
  match lat, lon with
  | .nonfinite, _ => .error .latNotFinite
  | .fin _, .nonfinite => .error .lonNotFinite
  | .fin a, .fin b =>
    if a < BR.minLat then .error .latBelowMin
    else if a > BR.maxLat then .error .latAboveMax
    else if b < BR.minLon then .error .lonBelowMin
    else if b > BR.maxLon then .error .lonAboveMax
    else .ok (a, b)

/-! ### The subdivision of a window -/

/-- `latDiv` (40_encode R73, 41_decode R95). -/
def latDiv (w : Window) : Rat := (w.maxLat - w.minLat) / 4

/-- `lonDiv` (40_encode R73, 41_decode R95). -/
def lonDiv (w : Window) : Rat := (w.maxLon - w.minLon) / 4

/-- The row of a latitude in a window: row 0 is the northernmost band (40_encode R74). -/
def rowOf (w : Window) (lat : Rat) : Digit :=
  clampDigit (3 - floorOf ((lat - w.minLat) / latDiv w))

/-- The column of a longitude in a window, increasing eastward (40_encode R74). -/
def colOf (w : Window) (lon : Rat) : Digit := clampDigit (floorOf ((lon - w.minLon) / lonDiv w))

/-- The narrowing of ENCODE, its latitude edges taken up from the old `W.minLat` (40_encode R77). -/
def narrowUp (w : Window) (row col : Digit) : Window where
  minLat := w.minLat + latDiv w * (3 - (row.val : Rat))
  maxLat := w.minLat + latDiv w * (4 - (row.val : Rat))
  minLon := w.minLon + lonDiv w * (col.val : Rat)
  maxLon := w.minLon + lonDiv w * (col.val : Rat) + lonDiv w

/-- The narrowing of DECODE, its latitude edges taken down from the old `W.maxLat` (41_decode
R95). -/
def narrowDown (w : Window) (row col : Digit) : Window where
  minLat := w.maxLat - latDiv w * (row.val : Rat) - latDiv w
  maxLat := w.maxLat - latDiv w * (row.val : Rat)
  minLon := w.minLon + lonDiv w * (col.val : Rat)
  maxLon := w.minLon + lonDiv w * (col.val : Rat) + lonDiv w

/-! ### The rendering of a coordinate (30_encoding R59) -/

/-- The character of a decimal digit, `'0'` to `'9'` (30_encoding R59). -/
def asciiDigit (d : Nat) : Ch := BitVec.ofNat 8 (0x30 + d)

/-- The decimal digits of `n`, no leading zero; `fuel` bounds their number. -/
def decimalDigits : Nat → Nat → List Ch
  | 0, _ => []
  | fuel + 1, n =>
    if n < 10 then [asciiDigit n] else decimalDigits fuel (n / 10) ++ [asciiDigit (n % 10)]

/-- Exactly `k` decimal digits of `n`, leading zeros kept. -/
def fixedDigits : Nat → Nat → List Ch
  | 0, _ => []
  | k + 1, n => fixedDigits k (n / 10) ++ [asciiDigit (n % 10)]

/-- The string of `n` micro-degrees: the integer part (at most three digits for any 27-bit `n`), the
mark `'.'`, six digits (30_encoding R59). -/
def render6 (n : Nat) : List Ch :=
  decimalDigits 3 (n / 10 ^ 6) ++ [0x2E] ++ fixedDigits 6 (n % 10 ^ 6)

end Sys2Proof.Machine
end

