-- ==== Sys2Proof/Machine/Ops.lean ====
section
/-! DEFINITION. The named operations over the registers: accepting a command, one level of ENCODE and
of DECODE, ending an operation with its results or by a raise, the response as the host sees it,
its taking, and reset. -/

namespace Sys2Proof.Machine

open Sys2Proof

/-! ### Accepting a command -/

/-- `IDLE -> BUSY`: the fields of a command are sampled together into the latches (10_state R15,
R16, R22; 20_memory R37 (a)), the coordinates through `val` (30_encoding R58). -/
def accept (c : Command) (s : State) : State :=
  { s with
    latch := { op := c.op, hyph := c.hyph, lat := coordVal s.cfg.coordFormat c.lat,
               lon := coordVal s.cfg.coordFormat c.lon, codeIn := c.codeIn }
    run := .busy }

/-- The operation the latches name. -/
def decodeLatches (l : Latches) : Except DecodeError Instr :=
  decodeFields l.op l.hyph l.lat l.lon l.codeIn

/-! ### The level counter and the window -/

/-- `LEVEL <- LEVEL + 1`, not after level 10 (10_state R17; 40_encode R77, 41_decode R95). -/
def nextLevel (level : Nat) : Nat := if level < LEVELS then level + 1 else level

/-- The start of ENCODE (40_encode R72). -/
def startEncode (s : State) : State :=
  { s with work := { s.work with window := BR, level := 1, codeOut := [], gidx := 0 } }

/-- What one level of ENCODE appends: the symbol, and a separator after the 3rd and the 6th when
`HYPH = 1` (40_encode R76). -/
def levelOutput (hyph : Bool) (level : Nat) (symbol : Ch) : List Ch :=
  if hyph ∧ (level = 3 ∨ level = 6) then [symbol, SEP] else [symbol]

/-- One level of ENCODE (40_encode R73 to R77, R81): every right-hand side reads the old state. -/
def encodeLevel (lat lon : Rat) (hyph : Bool) (s : State) : State :=
  let w := s.work.window
  let row := rowOf w lat
  let col := colOf w lon
  { s with
    work := { s.work with
      window := narrowUp w row col
      level := nextLevel s.work.level
      codeOut := s.work.codeOut ++ levelOutput hyph s.work.level (gridAt s.cfg.grid row col)
      gidx := s.work.gidx * 16 + BitVec.ofNat 40 (digitValue row col) } }

/-- `n` levels of ENCODE, in order (40_encode R79). -/
def encodeLevels (lat lon : Rat) (hyph : Bool) : Nat → State → State
  | 0, s => s
  | n + 1, s => encodeLevels lat lon hyph n (encodeLevel lat lon hyph s)

/-- `CANON <- strip(CODE_IN)` (41_decode R91, 42_isvalid R106). -/
def writeCanon (code : List Ch) (s : State) : State :=
  { s with work := { s.work with canon := strip code } }

/-- The start of DECODE (41_decode R94). -/
def startDecode (s : State) : State :=
  { s with work := { s.work with window := BR, level := 1 } }

/-- The narrowing of one level of DECODE (41_decode R95). -/
def decodeLevel (row col : Digit) (s : State) : State :=
  { s with
    work := { s.work with
      window := narrowDown s.work.window row col
      level := nextLevel s.work.level } }

/-- The levels of DECODE over the symbols of `CANON` in order (41_decode R93, R95, R98): at level `k`
the head of the list is `CANON[k-1]`. Ends at the first character that is no symbol, with the
working registers as they then stand (60_exceptions R136). -/
def decodeLevels : List Ch → State → Except (Ch × State) State
  | [], s => .ok s
  | ch :: rest, s =>
    match inv s.cfg.grid ch with
    | none => .error (ch, s)
    | some (row, col) => decodeLevels rest (decodeLevel row col s)

/-- The result registers of DECODE from the final window (41_decode R96, R97; 30_encoding R59,
R60). -/
def writeCentroid (s : State) : State :=
  let latC := (s.work.window.minLat + s.work.window.maxLat) / 2
  let lonC := (s.work.window.minLon + s.work.window.maxLon) / 2
  { s with
    res := { s.res with
      latC := latC
      lonC := lonC
      latUdeg := BitVec.ofNat 27 (round6 latC)
      lonUdeg := BitVec.ofNat 27 (round6 lonC)
      latStr := render6 (round6 latC)
      lonStr := render6 (round6 lonC) } }

/-- The result register of ISVALID (42_isvalid R105). -/
def writeValid (valid : Bool) (s : State) : State :=
  { s with res := { s.res with valid := valid } }

/-! ### The end of an operation -/

/-- `BUSY -> DONE` with `STATUS = OK` and `ERRINFO = 0` (10_state R22, 30_encoding R56, R57). -/
def respondOk (s : State) : State :=
  { s with res := { s.res with status := statusOk, errinfo := 0 }, run := .done }

/-- `raise E(info)` (60_exceptions R136): `STATUS` and `ERRINFO` of the error, `BUSY -> DONE`, and
nothing else; no result register is written (10_state R26), and control goes nowhere. -/
def raiseError (e : ErrorKind) (s : State) : State :=
  { s with res := { s.res with status := e.status, errinfo := e.info }, run := .done }

/-! ### The response and its taking -/

/-- The result fields that the operation of the latches has defined (30_encoding R55). -/
def resultFields (s : State) : Option Result :=
  if s.latch.op = opEncode then some (.encoded s.work.codeOut s.work.gidx)
  else if s.latch.op = opDecode then
    some (.decoded s.res.latC s.res.lonC s.res.latStr s.res.lonStr s.res.latUdeg s.res.lonUdeg)
  else if s.latch.op = opIsValid then some (.verdict s.res.valid)
  else none

/-- The response the host can read, which is there only while `RUN = DONE` (10_state R22; 30_encoding
R55; 70_reset R154): a view of the registers, not a register. -/
def response (s : State) : Option Response :=
  match s.run with
  | .done =>
    if s.res.status = statusOk then (resultFields s).map Response.ok
    else some (.error s.res.status s.res.errinfo)
  | .idle => none
  | .busy => none

/-- `DONE -> IDLE`: the host takes the response (10_state R22). This is all the return there is from
an error (60_exceptions R137). -/
def takeResponse (s : State) : State :=
  { s with run := .idle, host := { s.host with taken := s.host.taken ++ (response s).toList } }

/-! ### Reset -/

/-- Reset (70_reset R150): `RUN = IDLE`, a command in flight abandoned, the constants and the host's
side as they were; every other register at the value of `State.reset` (notes/assumptions/1). -/
def assertReset (s : State) : State := { State.reset with cfg := s.cfg, host := s.host }

end Sys2Proof.Machine
end

