-- ==== Sys2Proof/Machine/Decoder.lean ====
section
/-! DEFINITION. The meaning of DECODE (41_decode). -/

namespace Sys2Proof.Machine

open Sys2Proof

/-- DECODE once its length check has passed (41_decode R98 from the window on): the levels, then the
centroid; or the raise of R93. -/
def decodeSymbols (s : State) : State :=
  match decodeLevels s.work.canon (startDecode s) with
  | .error (ch, t) => raiseError (.invalidSymbol ch) t
  | .ok t => respondOk (writeCentroid t)

/-- DECODE (41_decode R98): the canonical form, the length check of R92, the levels. -/
def execDecode (code : List Ch) (s : State) : Host.Outcome State Fault Refusal :=
  let t := writeCanon code s
  if t.work.canon.length ≠ CODE_SYMS then .next (raiseError .format t)
  else .next (decodeSymbols t)

end Sys2Proof.Machine
end

