-- ==== Sys2Proof/Machine/Encoder.lean ====
section
/-! DEFINITION. The meaning of ENCODE (40_encode). -/

namespace Sys2Proof.Machine

open Sys2Proof

/-- ENCODE (40_encode R79): the checks of R71, then ten levels from the Bounding Region. -/
def execEncode (lat lon : CoordNum) (hyph : Bool) (s : State) : Host.Outcome State Fault Refusal :=
  match checkCoordinates lat lon with
  | .error bound => .next (raiseError (.outOfRange bound) s)
  | .ok (a, b) => .next (respondOk (encodeLevels a b hyph LEVELS (startEncode s)))

end Sys2Proof.Machine
end

