-- ==== Sys2Proof/Machine/Validator.lean ====
section
/-! DEFINITION. The meaning of ISVALID (42_isvalid). -/

namespace Sys2Proof.Machine

open Sys2Proof

/-- ISVALID (42_isvalid R106): the canonical form, then the verdict; it never raises (R107). -/
def execIsValid (code : List Ch) (s : State) : Host.Outcome State Fault Refusal :=
  let t := writeCanon code s
  .next (respondOk (writeValid
    (t.work.canon.length == CODE_SYMS && allSymbols t.cfg.grid t.work.canon) t))

end Sys2Proof.Machine
end

