-- ==== Sys2Proof/Machine/Dispatch.lean ====
section
/-! DEFINITION. One arm per operation. -/

namespace Sys2Proof.Machine

open Sys2Proof

def exec (i : Instr) (s : State) : Host.Outcome State Fault Refusal :=
  match i with
  | .encode lat lon hyph => Sys2Proof.Machine.execEncode lat lon hyph s
  | .decode code => Sys2Proof.Machine.execDecode code s
  | .isvalid code => Sys2Proof.Machine.execIsValid code s

end Sys2Proof.Machine
end

