-- ==== Sys2Proof/Machine/Step.lean ====
section
/-! DEFINITION. One step of the unit: a transition of `RUN` (10_state R22), or reset. -/

namespace Sys2Proof.Machine

open Sys2Proof

/-- One step. While reset is asserted, reset. Else by `RUN`: in `IDLE` the unit accepts the command
that waits, or goes on waiting; in `BUSY` it performs the whole operation the latches name; in
`DONE` the response is taken, or stays readable (10_state R22; 70_reset R150, R153, R154). -/
def step (s : State) : Host.Outcome State Fault Refusal :=
  if s.host.resetPin then .next (assertReset s)
  else
    match s.run with
    | .idle =>
      match s.host.commands with
      | [] => .next s
      | c :: rest => .next (accept c { s with host := { s.host with commands := rest } })
    | .busy =>
      match decodeLatches s.latch with
      | .ok i => exec i s
      | .error .reservedOp => .refused .reservedOperation
    | .done => if s.host.takes then .next (takeResponse s) else .next s

/-- The state right after the unit has accepted the command whose header is the table's word `w` and
whose operand fields are zero, with reset not asserted: the next step performs the operation
(notes/assumptions/8). -/
def State.withFetchWord (s : State) (_nbits w : Nat) : State :=
  accept (tableCommand w) { s with host := { s.host with resetPin := false } }

end Sys2Proof.Machine
end

