-- ==== Sys2Proof/Safety.lean ====
section
/-! DEFINITION. What claims say of a run: the response that belongs to a command, the spelling of a
grid index, and the legal states, which reset meets and every step keeps. -/

namespace Sys2Proof.Machine

open Sys2Proof

/-! ### A grid index and its code -/

/-- The digit of level `k`, `GIDX[43-4k : 40-4k]`, for `k` in `1 .. 10` (30_encoding R50). -/
def levelDigit (x : GridIndex) (k : Nat) : BitVec 4 := x.extractLsb' (40 - 4 * k) 4

/-- `row = n div 4` (30_encoding R49). -/
def digitRow (n : BitVec 4) : Digit := ⟨n.toNat / 4, by omega⟩

/-- `col = n mod 4` (30_encoding R49). -/
def digitCol (n : BitVec 4) : Digit := ⟨n.toNat % 4, by omega⟩

/-- The canonical code of a grid index: `canonical[k-1] = GRID[n_k div 4][n_k mod 4]` (30_encoding
R50). -/
def symbolsOf (g : SymbolGrid) (x : GridIndex) : List Ch :=
  (List.range CODE_SYMS).map fun i =>
    gridAt g (digitRow (levelDigit x (i + 1))) (digitCol (levelDigit x (i + 1)))

/-- The rendered form of a canonical code: separators after the 3rd and the 6th symbol when `hyph`,
none otherwise (30_encoding R46). -/
def rendered (hyph : Bool) (canonical : List Ch) : List Ch :=
  if hyph then
    canonical.take 3 ++ [SEP] ++ (canonical.drop 3).take 3 ++ [SEP] ++ canonical.drop 6
  else canonical

/-! ### The response that belongs to a command (00_scope R6) -/

/-- The response of a unit with the parameters `cfg` to one command presented alone, right after
reset; none for a reserved operation. -/
def responseTo (cfg : Config) (c : Command) : Option Response :=
  let s := accept c { State.reset with cfg := cfg }
  match decodeLatches s.latch with
  | .error _ => none
  | .ok i =>
    match exec i s with
    | .next t => response t
    | .fault _ => none
    | .refused _ => none

/-! ### Legal states -/

/-- The responses a host can be given (30_encoding R55 to R57, R63; 43_properties R124). -/
def responseLegal (g : SymbolGrid) : Response → Prop
  | .ok (.encoded codeOut gidx) => ∃ hyph, codeOut = rendered hyph (symbolsOf g gidx)
  | .ok (.decoded _ _ latStr lonStr latUdeg lonUdeg) =>
    2500017 ≤ latUdeg.toNat ∧ latUdeg.toNat ≤ 38499983 ∧
    63500017 ≤ lonUdeg.toNat ∧ lonUdeg.toNat ≤ 99499983 ∧
    latStr = render6 latUdeg.toNat ∧ lonStr = render6 lonUdeg.toNat
  | .ok (.verdict _) => True
  | .error status info =>
    (status = 1 ∧ info.toNat ≤ 5) ∨ (status = 2 ∧ info = 0) ∨ (status = 3 ∧ inv g info = none)

/-- How an ENCODE can have ended (60_exceptions R134): rejected with the bound its checks name, or
with the code of the cell that holds the coordinate (43_properties R114, R116). -/
def encodeEnded (s : State) : Prop :=
  match checkCoordinates s.latch.lat s.latch.lon with
  | .error b => s.res.status = 1 ∧ s.res.errinfo = b.code.setWidth 8
  | .ok (lat, lon) =>
    s.res.status = 0 ∧
    s.work.codeOut = rendered s.latch.hyph (symbolsOf s.cfg.grid s.work.gidx) ∧
    s.work.window.minLat ≤ lat ∧ lat ≤ s.work.window.maxLat ∧
    s.work.window.minLon ≤ lon ∧ lon ≤ s.work.window.maxLon ∧
    s.work.window.maxLat - s.work.window.minLat = 36 / 4 ^ 10 ∧
    s.work.window.maxLon - s.work.window.minLon = 36 / 4 ^ 10

/-- How a DECODE can have ended (60_exceptions R134): by the length, by a foreign character of the
canonical form, or with a rendered point inside the Bounding Region (43_properties R124). -/
def decodeEnded (s : State) : Prop :=
  s.work.canon = strip s.latch.codeIn ∧
  ((s.res.status = 2 ∧ s.work.canon.length ≠ 10) ∨
   (s.res.status = 3 ∧ s.work.canon.length = 10 ∧ s.res.errinfo ∈ s.work.canon ∧
      inv s.cfg.grid s.res.errinfo = none) ∨
   (s.res.status = 0 ∧ s.work.canon.length = 10 ∧ allSymbols s.cfg.grid s.work.canon = true ∧
      responseLegal s.cfg.grid
        (.ok (.decoded s.res.latC s.res.lonC s.res.latStr s.res.lonStr s.res.latUdeg
          s.res.lonUdeg))))

/-- How an ISVALID can have ended: `STATUS = OK`, and the verdict on the operand (42_isvalid R105,
R107). -/
def isValidEnded (s : State) : Prop :=
  s.work.canon = strip s.latch.codeIn ∧ s.res.status = 0 ∧
  (s.res.valid = true ↔ s.work.canon.length = 10 ∧ allSymbols s.cfg.grid s.work.canon = true)

/-- The legal states. They are more than the states a run reaches, and every step keeps them. -/
structure Legal (s : State) : Prop where
  /-- the grid is one the spec admits (30_encoding R47) -/
  grid : gridAdmissible s.cfg.grid = true
  /-- `LEVEL` is in `1 .. 10` (10_state R17) -/
  level : 1 ≤ s.work.level ∧ s.work.level ≤ 10
  /-- no separator is left in `CANON` (30_encoding R52) -/
  canon : SEP ∉ s.work.canon
  /-- `ERRINFO` fits `STATUS` (30_encoding R57) -/
  info : (s.res.status = 0 → s.res.errinfo = 0) ∧ (s.res.status = 2 → s.res.errinfo = 0) ∧
    (s.res.status = 1 → s.res.errinfo.toNat ≤ 5)
  /-- a response that is available belongs to the command in the latches -/
  ended : s.run = .done →
    (s.latch.op = 0 ∧ encodeEnded s) ∨ (s.latch.op = 1 ∧ decodeEnded s) ∨
    (s.latch.op = 2 ∧ isValidEnded s)
  /-- every response the host has taken is one of 30_encoding R55 -/
  taken : ∀ r ∈ s.host.taken, responseLegal s.cfg.grid r

/-- A run of `n` steps that neither faults nor is refused. -/
def safeRun (n : Nat) (s : State) : Prop := ∃ t, Host.Core.run core n s = .next t

end Sys2Proof.Machine
end

