-- ==== Sys2Proof/Certificates/Slice0/Obligations.lean ====
section
/-! DEFINITION. The statements for the provers, and the few definitions their wording needs. -/

namespace Sys2Proof.Claims

open Sys2Proof Sys2Proof.Machine

/-! ### Words the statements use -/

/-- A coordinate that ENCODE accepts: inside the Bounding Region, edges included (40_encode R71). -/
def Accepted (lat lon : ℚ) : Prop :=
  5 / 2 ≤ lat ∧ lat ≤ 77 / 2 ∧ 127 / 2 ≤ lon ∧ lon ≤ 199 / 2

/-- `h`, the side of a level-10 cell in degrees (43_properties, opening). -/
def cellSide : ℚ := 9 / 262144

/-- The window of ENCODE after `k` levels (at the start for `k = 0`). -/
def encodeWindow (lat lon : ℚ) (hyph : Bool) (k : ℕ) (s : State) : Window :=
  (encodeLevels lat lon hyph k (startEncode s)).work.window

/-- `Flat` of 43_properties R119. -/
def southIndex (lat : ℚ) : ℤ := min ⌊(lat - 5 / 2) / cellSide⌋ (2 ^ 20 - 1)

/-- `Flon` of 43_properties R119. -/
def westIndex (lon : ℚ) : ℤ := min ⌊(lon - 127 / 2) / cellSide⌋ (2 ^ 20 - 1)

/-- `Rg = 2^20 - 1 - Flat` of 43_properties R119. -/
def rowFromNorth (lat : ℚ) : ℕ := (2 ^ 20 - 1 - southIndex lat).toNat

/-- `Cg = Flon` of 43_properties R119. -/
def colFromWest (lon : ℚ) : ℕ := (westIndex lon).toNat

/-- The global row that the ten digits of a grid index spell: the sum of `row_k * 4^(10-k)`. -/
def globalRow (x : GridIndex) : ℕ :=
  ∑ k ∈ Finset.Icc 1 10, (digitRow (levelDigit x k)).val * 4 ^ (10 - k)

/-- The global column that the ten digits of a grid index spell. -/
def globalCol (x : GridIndex) : ℕ :=
  ∑ k ∈ Finset.Icc 1 10, (digitCol (levelDigit x k)).val * 4 ^ (10 - k)

/-- A code operand that DECODE accepts (41_decode R92, R93). -/
def ValidCode (g : SymbolGrid) (code : List Ch) : Prop :=
  (strip code).length = 10 ∧ ∀ ch ∈ strip code, inv g ch ≠ none

/-- The state an operation ends in when it raises an error and has written nothing else. -/
def raisedAs (s : State) (status : BitVec 2) (info : BitVec 8) : State :=
  { s with res := { s.res with status := status, errinfo := info }, run := .done }

/-- A unit that waits for a command, whether or not its host takes responses. -/
def Waiting (s : State) : Prop := s.host.resetPin = false ∧ s.run = .idle

/-- A unit that waits for a command, and a host that takes responses as they come. -/
def Ready (s : State) : Prop := Waiting s ∧ s.host.takes = true

/-- The state `s` with `c` the next command its host presents. -/
def presenting (c : Command) (s : State) : State :=
  { s with host := { s.host with commands := c :: s.host.commands } }

/-- What ENCODE leaves as it was (10_state R26): the parameters, the latches, `CANON`, the result
registers of DECODE and ISVALID, the host's side. -/
def EncodeFrame (s t : State) : Prop :=
  t.cfg = s.cfg ∧ t.latch = s.latch ∧ t.work.canon = s.work.canon ∧ t.host = s.host ∧
  t.res.latC = s.res.latC ∧ t.res.lonC = s.res.lonC ∧
  t.res.latStr = s.res.latStr ∧ t.res.lonStr = s.res.lonStr ∧
  t.res.latUdeg = s.res.latUdeg ∧ t.res.lonUdeg = s.res.lonUdeg ∧ t.res.valid = s.res.valid

/-- What DECODE leaves as it was (10_state R26): the parameters, the latches, `CODE_OUT`, `GIDX`,
`VALID`, the host's side; and, when it ends in an error, its own result registers. -/
def DecodeFrame (s t : State) : Prop :=
  t.cfg = s.cfg ∧ t.latch = s.latch ∧ t.work.codeOut = s.work.codeOut ∧
  t.work.gidx = s.work.gidx ∧ t.res.valid = s.res.valid ∧ t.host = s.host ∧
  (t.res.status ≠ 0 →
    t.res = { s.res with status := t.res.status, errinfo := t.res.errinfo })

/-- The characters of the string `"AAA-AAA-AAAA"`. -/
def triplesOfA : List Ch :=
  [0x41, 0x41, 0x41, 0x2D, 0x41, 0x41, 0x41, 0x2D, 0x41, 0x41, 0x41, 0x41]

end Sys2Proof.Claims

open Sys2Proof Sys2Proof.Machine Sys2Proof.Claims

/-! ### Reset and the steps of the unit -/

/-- 70_reset R150. Reset: `IDLE`, no command in flight, no response pending, the constants as
they were; then the unit waits for its first command. That what the host holds (the commands it has
yet to present, the reset input, its readiness) survives a reset is this model's choice
(notes/assumptions/7, DESIGN CHOICE). -/
def Obligations.ResetLeavesIdleAndWaits : Prop :=
  (State.reset.run = .idle ∧ response State.reset = none) ∧
  (∀ s : State, s.host.resetPin = true → ∃ t, step s = .next t ∧ t.run = .idle ∧
    response t = none ∧ t.cfg = s.cfg ∧ t.host = s.host) ∧
  (∀ s : State, s.host.resetPin = false → s.run = .idle → s.host.commands = [] → step s = .next s)

/-- 10_state R15, R16, R22; 20_memory R37 (a); 30_encoding R53: `IDLE -> BUSY` samples every field of
the command that waits, and changes nothing else. It says so of a reserved command too, and of the
host's queue: these are this model's choices (notes/assumptions/17 and 7, DESIGN CHOICE; 30_encoding
R61 leaves `OP = 3` unspecified). -/
def Obligations.AcceptanceLatchesTheCommand : Prop :=
  ∀ (s : State) (c : Command) (rest : List Command),
    s.host.resetPin = false → s.run = .idle → s.host.commands = c :: rest →
    step s = .next { s with
      latch := { op := c.header.extractLsb' 0 2, hyph := c.header.getLsbD 2,
                 lat := coordVal s.cfg.coordFormat c.lat, lon := coordVal s.cfg.coordFormat c.lon,
                 codeIn := c.codeIn }
      run := .busy
      host := { s.host with commands := rest } }

/-- 10_state R22, 30_encoding R54: in `BUSY` a step is the operation that the latches name. That
the whole operation is one step, and the very next one, is this model's choice (notes/assumptions/9,
DESIGN CHOICE; 70_reset R156 leaves the number of steps open). -/
def Obligations.StepPerformsDecodedOperation : Prop :=
  ∀ (s : State) (i : Instr), s.host.resetPin = false → s.run = .busy →
    decodeLatches s.latch = .ok i → step s = exec i s

/-- 10_state R22, 70_reset R154: the response stays readable until the host takes it; taking it is
`DONE -> IDLE`, and delivers it after those taken before. That the latches and the working registers
are then as they were is this model's reading (notes/assumptions/4, DEDUCED; 93 U4 allows any value
there), and the host's list of responses its choice (notes/assumptions/7, DESIGN CHOICE). -/
def Obligations.ResponseStaysUntilTaken : Prop :=
  ∀ s : State, s.host.resetPin = false → s.run = .done →
    (s.host.takes = false → step s = .next s) ∧
    (s.host.takes = true → ∃ t, step s = .next t ∧
      t = { s with run := .idle,
                   host := { s.host with taken := s.host.taken ++ (response s).toList } } ∧
      response t = none)

/-- 30_encoding R55: which fields a response has, by operation and `STATUS`; none outside `DONE`. That it
is a view of the registers, by the latched operation, is this model's reading (notes/assumptions/10,
DEDUCED). -/
def Obligations.ResponseFieldsByOperation : Prop :=
  ∀ s : State,
    (s.run ≠ .done → response s = none) ∧
    (s.run = .done → s.res.status ≠ 0 →
      response s = some (.error s.res.status s.res.errinfo)) ∧
    (s.run = .done → s.res.status = 0 → s.latch.op = 0 →
      response s = some (.ok (.encoded s.work.codeOut s.work.gidx))) ∧
    (s.run = .done → s.res.status = 0 → s.latch.op = 1 →
      response s = some (.ok (.decoded s.res.latC s.res.lonC s.res.latStr s.res.lonStr
        s.res.latUdeg s.res.lonUdeg))) ∧
    (s.run = .done → s.res.status = 0 → s.latch.op = 2 →
      response s = some (.ok (.verdict s.res.valid)))

/-- 30_encoding R61: `OP = 3` and no other operation code is refused, by the decoder and by the
step. That the refusal comes at the step that would perform the command is this model's choice
(notes/assumptions/17, DESIGN CHOICE). -/
def Obligations.ReservedOperationRefused : Prop :=
  (∀ (fmt : CoordFormat) (c : Command),
    decode fmt c = .error .reservedOp ↔ c.header = 3 ∨ c.header = 7) ∧
  (∀ s : State, s.host.resetPin = false → s.run = .busy → s.latch.op = 3 →
    step s = .refused .reservedOperation)

/-! ### Encodings -/

/-- 30_encoding R54: the header patterns `h00`, `x01`, `x10`, and `OP = 3`. -/
def Obligations.HeaderPatternsName : Prop :=
  ∀ (fmt : CoordFormat) (c : Command),
    (c.header = 0b000 → decode fmt c = .ok (.encode (coordVal fmt c.lat) (coordVal fmt c.lon) false)) ∧
    (c.header = 0b100 → decode fmt c = .ok (.encode (coordVal fmt c.lat) (coordVal fmt c.lon) true)) ∧
    (c.header = 0b001 ∨ c.header = 0b101 → decode fmt c = .ok (.decode c.codeIn)) ∧
    (c.header = 0b010 ∨ c.header = 0b110 → decode fmt c = .ok (.isvalid c.codeIn)) ∧
    (c.header = 0b011 ∨ c.header = 0b111 → decode fmt c = .error .reservedOp)

/-- 95_test_vectors P1 and P2: a few command records written out from R53, R54 and R58 decode to the
operations they stand for. -/
def Obligations.WrittenCommandsDecode : Prop :=
  decode .binary64 { header := 0b100, lat := 0x4004000000000000, lon := 0x404FC00000000000,
                     codeIn := [] } = .ok (.encode (.fin (5 / 2)) (.fin (127 / 2)) true) ∧
  decode .binary64 { header := 0b000, lat := 0x7FF8000000000000, lon := 0x8000000000000000,
                     codeIn := [0x41] } = .ok (.encode .nonfinite (.fin 0) false) ∧
  decode .binary64 { header := 0b001, lat := 0, lon := 0, codeIn := triplesOfA } =
    .ok (.decode triplesOfA) ∧
  decode .binary64 { header := 0b010, lat := 0, lon := 0, codeIn := triplesOfA } =
    .ok (.isvalid triplesOfA)

/-- 30_encoding R58 (and 00_scope R4, R9): the value of the bits on a binary64 port, both zeros among
them; a port of any other format, of any width, reads the function `val` of that format; acceptance
reads each coordinate through the port format; binary64 is the default, and 64 bits wide. -/
def Obligations.PortBitsValue : Prop :=
  (∀ bits : BitVec 64,
    let s := (bits.extractLsb' 63 1).toNat
    let e := (bits.extractLsb' 52 11).toNat
    let f := (bits.extractLsb' 0 52).toNat
    (e = 2047 → coordVal .binary64 bits.toNat = .nonfinite) ∧
    (e = 0 → coordVal .binary64 bits.toNat = .fin ((-1) ^ s * (f : ℚ) * 2 ^ (-1074 : ℤ))) ∧
    (e ≠ 0 → e ≠ 2047 →
      coordVal .binary64 bits.toNat = .fin ((-1) ^ s * (2 ^ 52 + f : ℚ) * 2 ^ ((e : ℤ) - 1075)))) ∧
  coordVal .binary64 0x0000000000000000 = .fin 0 ∧
  coordVal .binary64 0x8000000000000000 = .fin 0 ∧
  (∀ (width : ℕ) (bits : BitVec width),
    coordVal (.platform width) bits.toNat = platformVal width bits) ∧
  (∀ (c : Command) (s : State),
    (accept c s).latch.lat = coordVal s.cfg.coordFormat c.lat ∧
    (accept c s).latch.lon = coordVal s.cfg.coordFormat c.lon) ∧
  Config.default.coordFormat = .binary64 ∧ Config.default.coordFormat.width = 64

/-- 30_encoding R53, R54, R58: on a binary64 port the command record of every well-formed operation
decodes to that operation, with every operand at every value the port can carry. -/
def Obligations.EncodedOperationDecodesBack : Prop :=
  ∀ i : Instr, i.wellFormed = true → decode .binary64 (encode i) = .ok i

/-- 30_encoding R53, R54, R58: an operation read from a binary64 port is well formed. -/
def Obligations.DecodedOperationIsWellFormed : Prop :=
  ∀ (c : Command) (i : Instr), decode .binary64 c = .ok i → i.wellFormed = true

/-- 30_encoding R65: two commands that differ only in fields their operation ignores, presented to
the same waiting unit, have the same response. That it is there after two steps is this model's
choice (notes/assumptions/8 and 9, DESIGN CHOICE). -/
def Obligations.UnusedOperandsIgnored : Prop :=
  ∀ (s : State) (c d : Command),
    Waiting s → c.header.extractLsb' 0 2 = d.header.extractLsb' 0 2 →
    (c.header.extractLsb' 0 2 = 0 ∧ c.header = d.header ∧ c.lat = d.lat ∧ c.lon = d.lon) ∨
    ((c.header.extractLsb' 0 2 = 1 ∨ c.header.extractLsb' 0 2 = 2) ∧ c.codeIn = d.codeIn) →
    ∃ t u, Host.Core.run core 2 (presenting c s) = .next t ∧
      Host.Core.run core 2 (presenting d s) = .next u ∧
      response t = response u ∧ (response t).isSome = true

/-! ### Operand forms and flags -/

/-- 00_scope R2, R3: `floor` is the greatest integer not above its argument; `clamp` keeps a value
inside its bounds and moves one outside to the nearer bound. -/
def Obligations.FloorAndClamp : Prop :=
  (∀ q : ℚ, (floorOf q : ℚ) ≤ q ∧ ∀ n : ℤ, (n : ℚ) ≤ q → n ≤ floorOf q) ∧
  (∀ v lo hi : ℤ, lo ≤ hi →
    (v < lo → clamp v lo hi = lo) ∧ (v > hi → clamp v lo hi = hi) ∧
    (lo ≤ v → v ≤ hi → clamp v lo hi = v))

/-- 00_scope R5: `round6` is the nearest integer, the larger of two equally near. -/
def Obligations.RoundSixIsNearest : Prop :=
  ∀ q : ℚ, 0 ≤ q → ∀ m : ℤ,
    |(round6 q : ℚ) - q * 10 ^ 6| ≤ |(m : ℚ) - q * 10 ^ 6| ∧
    (|(round6 q : ℚ) - q * 10 ^ 6| = |(m : ℚ) - q * 10 ^ 6| → m ≤ (round6 q : ℤ))

/-- 30_encoding R52: the three equations of `strip`, what it removes, and that DECODE and ISVALID
compute `CANON` with it and read nothing else of their operand. That `CANON` still holds it when the
operation has ended, and every other working register the same for both operands, is this model's
reading (notes/assumptions/4, DEDUCED; 93 U4 allows any value there). -/
def Obligations.StripMakesTheCanonicalForm : Prop :=
  strip [] = [] ∧
  (∀ (c : Ch) (s : List Ch), c = SEP → strip (c :: s) = strip s) ∧
  (∀ (c : Ch) (s : List Ch), c ≠ SEP → strip (c :: s) = c :: strip s) ∧
  (∀ s : List Ch, strip s = s.filter (fun c => decide (c ≠ SEP))) ∧
  (∀ (code : List Ch) (s : State), ∃ t u, exec (.decode code) s = .next t ∧
    exec (.isvalid code) s = .next u ∧ t.work.canon = strip code ∧ u.work.canon = strip code ∧
    exec (.decode (strip code)) s = .next t ∧ exec (.isvalid (strip code)) s = .next u)

/-- 30_encoding R47: the four conditions on `SYMBOL_GRID`, and that the default meets them. -/
def Obligations.AdmissibleGridConditions : Prop :=
  (∀ g : SymbolGrid, gridAdmissible g = true ↔
    (∀ r c r' c' : Digit, gridAt g r c = gridAt g r' c' → r = r' ∧ c = c') ∧
    (∀ r c : Digit, gridAt g r c ≠ 0x2D) ∧
    (∀ r c : Digit, gridAt g r c ≠ 0x41) ∧
    (∀ r c : Digit, let n := (gridAt g r c).toNat
      (0x30 ≤ n ∧ n ≤ 0x39) ∨ (0x41 ≤ n ∧ n ≤ 0x5A) ∨ (0x61 ≤ n ∧ n ≤ 0x7A))) ∧
  gridAdmissible gDefault = true

/-- 30_encoding R48: `INV` is the inverse of an admissible `GRID`: a hit on its 16 symbols and on no
other of the 256 characters, so not on `SEP`, `'A'`, a letter the grid lacks, the space or 0x00. -/
def Obligations.InverseTableOfGrid : Prop :=
  ∀ g : SymbolGrid, gridAdmissible g = true →
    (∀ (ch : Ch) (r c : Digit), inv g ch = some (r, c) ↔ gridAt g r c = ch) ∧
    (∀ r c : Digit, inv g (gridAt g r c) = some (r, c)) ∧
    (Finset.univ.filter fun n : Fin 256 => inv g (BitVec.ofFin n) = none).card = 240 ∧
    inv g SEP = none ∧ inv g 0x41 = none ∧ inv g 0x20 = none ∧ inv g 0x00 = none ∧
    (∀ ch : Ch, (∀ r c : Digit, gridAt g r c ≠ ch) → inv g ch = none)

/-- 30_encoding R57 (and R56): the `STATUS` and the `ERRINFO` of every error, and of `OK`. -/
def Obligations.ErrorInfoByStatus : Prop :=
  (∀ s : State, (respondOk s).res.status = 0 ∧ (respondOk s).res.errinfo = 0) ∧
  (∀ s : State, (raiseError .format s).res.status = 2 ∧ (raiseError .format s).res.errinfo = 0) ∧
  (∀ (s : State) (ch : Ch), (raiseError (.invalidSymbol ch) s).res.status = 3 ∧
    (raiseError (.invalidSymbol ch) s).res.errinfo = ch) ∧
  (∀ (s : State) (b : Bound), (raiseError (.outOfRange b) s).res.status = 1 ∧
    (raiseError (.outOfRange b) s).res.errinfo.extractLsb' 3 5 = 0 ∧
    (raiseError (.outOfRange b) s).res.errinfo.extractLsb' 0 3 =
      match b with
      | .latNotFinite => 0
      | .lonNotFinite => 1
      | .latBelowMin => 2
      | .latAboveMax => 3
      | .lonBelowMin => 4
      | .lonAboveMax => 5)

/-- 30_encoding R59: the string of `n` micro-degrees below one hundred degrees: the integer part with
no leading zero, the mark, exactly six digits; and the example of the rule. -/
def Obligations.RenderedDigits : Prop :=
  (∀ n : ℕ, n < 100000000 →
    render6 n =
      (if n / 1000000 < 10 then [BitVec.ofNat 8 (48 + n / 1000000)]
       else [BitVec.ofNat 8 (48 + n / 10000000), BitVec.ofNat 8 (48 + n / 1000000 % 10)]) ++
      [0x2E] ++
      [BitVec.ofNat 8 (48 + n / 100000 % 10), BitVec.ofNat 8 (48 + n / 10000 % 10),
       BitVec.ofNat 8 (48 + n / 1000 % 10), BitVec.ofNat 8 (48 + n / 100 % 10),
       BitVec.ofNat 8 (48 + n / 10 % 10), BitVec.ofNat 8 (48 + n % 10)]) ∧
  round6 (10747913 / 524288) = 20500017 ∧
  render6 20500017 = [0x32, 0x30, 0x2E, 0x35, 0x30, 0x30, 0x30, 0x31, 0x37]

/-! ### ENCODE -/

/-- 40_encode R71: which coordinates are rejected, with which bound code, in the order of the checks;
the edges of the Bounding Region are accepted. That a rejected command leaves every other register,
the working registers among them, as it was is this model's reading of 60_exceptions R136 and
10_state R26 (notes/assumptions/4, DEDUCED; 93 U4 allows any value there). -/
def Obligations.EncodeRangeChecks : Prop :=
  ∀ (s : State) (hyph : Bool),
    (∀ lon, exec (.encode .nonfinite lon hyph) s = .next (raisedAs s 1 0)) ∧
    (∀ a, exec (.encode (.fin a) .nonfinite hyph) s = .next (raisedAs s 1 1)) ∧
    (∀ a b, a < 5 / 2 → exec (.encode (.fin a) (.fin b) hyph) s = .next (raisedAs s 1 2)) ∧
    (∀ a b, 77 / 2 < a → exec (.encode (.fin a) (.fin b) hyph) s = .next (raisedAs s 1 3)) ∧
    (∀ a b, 5 / 2 ≤ a → a ≤ 77 / 2 → b < 127 / 2 →
      exec (.encode (.fin a) (.fin b) hyph) s = .next (raisedAs s 1 4)) ∧
    (∀ a b, 5 / 2 ≤ a → a ≤ 77 / 2 → 199 / 2 < b →
      exec (.encode (.fin a) (.fin b) hyph) s = .next (raisedAs s 1 5)) ∧
    (∀ a b, 5 / 2 ≤ a → a ≤ 77 / 2 → 127 / 2 ≤ b → b ≤ 199 / 2 →
      ∃ t, exec (.encode (.fin a) (.fin b) hyph) s = .next t ∧ t.res.status = 0)

/-- 40_encode R78 (and 30_encoding R63; 10_state R26): an accepted coordinate completes: ten levels,
`STATUS = OK`, `ERRINFO = 0`, a code of 12 or 10 characters, and the frame. That `LEVEL` stands at 10
afterwards (10_state R17) and `CANON` is as it was (R26) is this model's reading (notes/assumptions/4,
DEDUCED; 93 U4 allows any value there). -/
def Obligations.EncodeCompletes : Prop :=
  ∀ (s : State) (lat lon : ℚ) (hyph : Bool), Accepted lat lon →
    ∃ t, exec (.encode (.fin lat) (.fin lon) hyph) s = .next t ∧
      t.run = .done ∧ t.res.status = 0 ∧ t.res.errinfo = 0 ∧ t.work.level = 10 ∧
      t.work.codeOut.length = (if hyph then 12 else 10) ∧
      (Result.encoded t.work.codeOut t.work.gidx).codeOutLen = some (if hyph then 12 else 10) ∧
      (s.latch.op = 0 → response t = some (.ok (.encoded t.work.codeOut t.work.gidx))) ∧
      EncodeFrame s t

/-- 30_encoding R46, R50; 40_encode R76, R81: `CODE_OUT` is the rendered form of the ten symbols whose
digits `GIDX` packs. -/
def Obligations.CodeSpellsTheGridIndex : Prop :=
  ∀ (s : State) (lat lon : ℚ) (hyph : Bool), Accepted lat lon →
    ∃ t, exec (.encode (.fin lat) (.fin lon) hyph) s = .next t ∧
      t.work.codeOut = rendered hyph (symbolsOf s.cfg.grid t.work.gidx)

/-- 40_encode R80: ENCODE changes only its working registers and the response; equal operands give
equal responses; the rows depend on the latitude only, the columns on the longitude only. That
`CANON` and the result registers of the other operations are as they were when it has ended is this
model's reading of 10_state R26 (notes/assumptions/4, DEDUCED; 93 U4 allows any value in a working
register). -/
def Obligations.EncodeIsPure : Prop :=
  (∀ (s : State) (lat lon : CoordNum) (hyph : Bool),
    ∃ t, exec (.encode lat lon hyph) s = .next t ∧ EncodeFrame s t) ∧
  (∀ (s s' : State) (lat lon : CoordNum) (hyph : Bool), s.cfg = s'.cfg →
    ∃ t t', exec (.encode lat lon hyph) s = .next t ∧ exec (.encode lat lon hyph) s' = .next t' ∧
      t.res.status = t'.res.status ∧ t.res.errinfo = t'.res.errinfo ∧
      (t.res.status = 0 → t.work.codeOut = t'.work.codeOut ∧ t.work.gidx = t'.work.gidx)) ∧
  (∀ (s s' : State) (lat lat' lon lon' : ℚ) (hyph hyph' : Bool),
    Accepted lat lon → Accepted lat' lon' →
    ∃ t t', exec (.encode (.fin lat) (.fin lon) hyph) s = .next t ∧
      exec (.encode (.fin lat') (.fin lon') hyph') s' = .next t' ∧
      (lat = lat' → ∀ k, 1 ≤ k → k ≤ 10 →
        digitRow (levelDigit t.work.gidx k) = digitRow (levelDigit t'.work.gidx k)) ∧
      (lon = lon' → ∀ k, 1 ≤ k → k ≤ 10 →
        digitCol (levelDigit t.work.gidx k) = digitCol (levelDigit t'.work.gidx k)))

/-- 40_encode R82, its rows on the four edges and on interior lines: what the digits are from the
level on at which a coordinate stands on a south or a west line of the subdivision. -/
def Obligations.EdgeAndLineDigits : Prop :=
  ∀ (s : State) (lat lon : ℚ) (hyph : Bool), Accepted lat lon →
    ∃ t, exec (.encode (.fin lat) (.fin lon) hyph) s = .next t ∧
      ∀ k, 1 ≤ k → k ≤ 10 →
        (lat = 77 / 2 → (digitRow (levelDigit t.work.gidx k)).val = 0) ∧
        (lon = 199 / 2 → (digitCol (levelDigit t.work.gidx k)).val = 3) ∧
        (lat = 5 / 2 → (digitRow (levelDigit t.work.gidx k)).val = 3) ∧
        (lon = 127 / 2 → (digitCol (levelDigit t.work.gidx k)).val = 0) ∧
        (∀ (j : ℕ) (n : ℤ), 1 ≤ j → j < k → n ≤ 3 →
          let w := encodeWindow lat lon hyph (j - 1) s
          (lat = w.minLat + n * latDiv w → (digitRow (levelDigit t.work.gidx k)).val = 3) ∧
          (lon = w.minLon + n * lonDiv w → (digitCol (levelDigit t.work.gidx k)).val = 0))

/-- 43_properties R114. -/
def Obligations.WindowHoldsTheCoordinate : Prop :=
  ∀ (s : State) (lat lon : ℚ) (hyph : Bool) (k : ℕ), Accepted lat lon → k ≤ 10 →
    let w := encodeWindow lat lon hyph k s
    w.minLat ≤ lat ∧ lat ≤ w.maxLat ∧ w.minLon ≤ lon ∧ lon ≤ w.maxLon

/-- 43_properties R116: the sides of the window and the divisions, entering level `k + 1` and leaving
level 10, in ENCODE and in DECODE. -/
def Obligations.WindowSideAtEachLevel : Prop :=
  (∀ (s : State) (lat lon : ℚ) (hyph : Bool) (k : ℕ), k ≤ 10 →
    let w := encodeWindow lat lon hyph k s
    w.maxLat - w.minLat = 36 / 4 ^ k ∧ w.maxLon - w.minLon = 36 / 4 ^ k ∧
    latDiv w = 36 / 4 ^ (k + 1) ∧ lonDiv w = 36 / 4 ^ (k + 1)) ∧
  (∀ (s t : State) (symbols : List Ch), symbols.length ≤ 10 →
    decodeLevels symbols (startDecode s) = .ok t →
    let w := t.work.window
    let k := symbols.length
    w.maxLat - w.minLat = 36 / 4 ^ k ∧ w.maxLon - w.minLon = 36 / 4 ^ k ∧
    latDiv w = 36 / 4 ^ (k + 1) ∧ lonDiv w = 36 / 4 ^ (k + 1))

/-- 43_properties R115: where the edges of the window can stand after level `k`, in ENCODE and in
DECODE; hence on a lattice of step `9/2^18`; the centroid is half a step further. That
the final window is still in `W` when DECODE has ended is this model's reading (notes/assumptions/4,
DEDUCED; 93 U4 allows any value there). -/
def Obligations.WindowEdgesOnTheLattice : Prop :=
  let atLevel : ℕ → Window → Prop := fun k w =>
    (∃ a b : ℕ, a < 4 ^ k ∧ b < 4 ^ k ∧
      w.minLat = 5 / 2 + a * (36 / 4 ^ k) ∧ w.maxLat = w.minLat + 36 / 4 ^ k ∧
      w.minLon = 127 / 2 + b * (36 / 4 ^ k) ∧ w.maxLon = w.minLon + 36 / 4 ^ k) ∧
    (∃ j₁ j₂ j₃ j₄ : ℕ, j₁ ≤ 2 ^ 20 ∧ j₂ ≤ 2 ^ 20 ∧ j₃ ≤ 2 ^ 20 ∧ j₄ ≤ 2 ^ 20 ∧
      w.minLat = 5 / 2 + 9 * j₁ / 2 ^ 18 ∧ w.maxLat = 5 / 2 + 9 * j₂ / 2 ^ 18 ∧
      w.minLon = 127 / 2 + 9 * j₃ / 2 ^ 18 ∧ w.maxLon = 127 / 2 + 9 * j₄ / 2 ^ 18)
  (∀ (s : State) (lat lon : ℚ) (hyph : Bool) (k : ℕ), k ≤ 10 →
    atLevel k (encodeWindow lat lon hyph k s)) ∧
  (∀ (s t : State) (symbols : List Ch), symbols.length ≤ 10 →
    decodeLevels symbols (startDecode s) = .ok t → atLevel symbols.length t.work.window) ∧
  (∀ (s : State) (code : List Ch), ValidCode s.cfg.grid code →
    ∃ u, exec (.decode code) s = .next u ∧ u.res.status = 0 ∧
      u.res.latC = u.work.window.minLat + 9 / 2 ^ 19 ∧
      u.res.lonC = u.work.window.minLon + 9 / 2 ^ 19 ∧
      u.res.latC.den ∣ 2 ^ 19 ∧ u.res.lonC.den ∣ 2 ^ 19)

/-- 43_properties R117: the coordinate stands on the north (east) edge of its window at some level
only on the north (east) edge of the Bounding Region, and then at every level; so the clamp changes
an index there alone. -/
def Obligations.ClampOnlyOnTheOuterEdge : Prop :=
  ∀ (s : State) (lat lon : ℚ) (hyph : Bool) (k : ℕ), Accepted lat lon → k ≤ 10 →
    let w := encodeWindow lat lon hyph k s
    (lat = w.maxLat ↔ lat = 77 / 2) ∧ (lon = w.maxLon ↔ lon = 199 / 2) ∧
    (((rowOf w lat).val : ℤ) ≠ 3 - floorOf ((lat - w.minLat) / latDiv w) ↔ lat = 77 / 2) ∧
    (((colOf w lon).val : ℤ) ≠ floorOf ((lon - w.minLon) / lonDiv w) ↔ lon = 199 / 2)

/-- 43_properties R118: the cell of corner indices `(R, C)` owns its south and west edges, and its
north or east edge only on the edge of the Bounding Region; every accepted coordinate lies in
exactly one cell. -/
def Obligations.CellOwnsItsSouthWestEdges : Prop :=
  ∀ (s : State) (lat lon : ℚ) (hyph : Bool), Accepted lat lon →
    ∃ t, exec (.encode (.fin lat) (.fin lon) hyph) s = .next t ∧
      globalRow t.work.gidx < 2 ^ 20 ∧ globalCol t.work.gidx < 2 ^ 20 ∧
      ∀ R C : ℕ, R < 2 ^ 20 → C < 2 ^ 20 →
        ((globalRow t.work.gidx = R ∧ globalCol t.work.gidx = C) ↔
          (77 / 2 - (R + 1) * cellSide ≤ lat ∧
            (lat < 77 / 2 - R * cellSide ∨ (R = 0 ∧ lat = 77 / 2)) ∧
           127 / 2 + C * cellSide ≤ lon ∧
            (lon < 127 / 2 + (C + 1) * cellSide ∨ (C = 2 ^ 20 - 1 ∧ lon = 199 / 2))))

/-- 43_properties R119: ENCODE in closed form: the digits of `GIDX` are the base-4 digits of `Rg` and
`Cg`, most significant first; the `min` acts only on the north and the east edge. -/
def Obligations.EncodeClosedForm : Prop :=
  ∀ (s : State) (lat lon : ℚ) (hyph : Bool), Accepted lat lon →
    (2 ^ 20 - 1 < ⌊(lat - 5 / 2) / cellSide⌋ ↔ lat = 77 / 2) ∧
    (2 ^ 20 - 1 < ⌊(lon - 127 / 2) / cellSide⌋ ↔ lon = 199 / 2) ∧
    0 ≤ southIndex lat ∧ southIndex lat ≤ 2 ^ 20 - 1 ∧
    0 ≤ westIndex lon ∧ westIndex lon ≤ 2 ^ 20 - 1 ∧
    ∃ t, exec (.encode (.fin lat) (.fin lon) hyph) s = .next t ∧ t.res.status = 0 ∧
      ∀ k, 1 ≤ k → k ≤ 10 →
        (digitRow (levelDigit t.work.gidx k)).val = rowFromNorth lat / 4 ^ (10 - k) % 4 ∧
        (digitCol (levelDigit t.work.gidx k)).val = colFromWest lon / 4 ^ (10 - k) % 4 ∧
        levelDigit t.work.gidx k =
          (BitVec.ofNat 20 (rowFromNorth lat)).extractLsb' (20 - 2 * k) 2 ++
          (BitVec.ofNat 20 (colFromWest lon)).extractLsb' (20 - 2 * k) 2

/-- 43_properties R125. -/
def Obligations.BoundaryClampExample : Prop :=
  ∀ (s : State) (hyph : Bool), ∃ t,
    exec (.encode (.fin (77 / 2)) (.fin (199 / 2)) hyph) s = .next t ∧ t.res.status = 0 ∧
    t.work.gidx = 0x3333333333 ∧
    ∀ k, 1 ≤ k → k ≤ 10 → (digitRow (levelDigit t.work.gidx k)).val = 0 ∧
      (digitCol (levelDigit t.work.gidx k)).val = 3

/-- 43_properties R126: the two rejections and their bound codes. That every other register, the
working registers among them, is as it was is this model's reading of 60_exceptions R136 and 10_state
R26 (notes/assumptions/4, DEDUCED; 93 U4 allows any value there). -/
def Obligations.RejectionExamples : Prop :=
  ∀ (s : State) (hyph : Bool),
    exec (.encode (.fin 0) (.fin 80) hyph) s = .next (raisedAs s 1 2) ∧
    exec (.encode (.fin 20) (.fin 150) hyph) s = .next (raisedAs s 1 5)

/-- 40_encode and 41_decode, their worked examples: the digits of a coordinate in any grid, and the
centroid and the renderings of the code those digits spell. -/
def Obligations.WorkedExample : Prop :=
  ∀ (s : State) (hyph : Bool), gridAdmissible s.cfg.grid = true →
    ∃ t u, exec (.encode (.fin (28622788 / 10 ^ 6)) (.fin (77213033 / 10 ^ 6)) hyph) s = .next t ∧
      t.work.gidx = 0x52492CC3F9 ∧ exec (.decode t.work.codeOut) t = .next u ∧
      u.res.latC = 15006587 / 524288 ∧ u.res.lonC = 40481875 / 524288 ∧
      u.res.latUdeg = 28622793 ∧ u.res.lonUdeg = 77213049 ∧
      u.res.latStr = [0x32, 0x38, 0x2E, 0x36, 0x32, 0x32, 0x37, 0x39, 0x33] ∧
      u.res.lonStr = [0x37, 0x37, 0x2E, 0x32, 0x31, 0x33, 0x30, 0x34, 0x39]

/-! ### DECODE -/

/-- 41_decode R92 (and 60_exceptions R132): a canonical form of any length but ten raises
`FormatError`, whatever its characters; so do the empty operand and one of separators only. That
`CANON` keeps the canonical form and every other working register is as it was is this model's
reading of 60_exceptions R136 and 10_state R26 (notes/assumptions/4, DEDUCED; 93 U4 allows any value
there). -/
def Obligations.WrongLengthRaisesFormatError : Prop :=
  (∀ (s : State) (code : List Ch), (strip code).length ≠ 10 →
    exec (.decode code) s =
      .next (raisedAs { s with work := { s.work with canon := strip code } } 2 0)) ∧
  (∀ (s : State) (n : ℕ), ∃ t, exec (.decode (List.replicate n SEP)) s = .next t ∧
    t.work.canon = [] ∧ t.res.status = 2 ∧ t.res.errinfo = 0)

/-- 41_decode R93 (and 60_exceptions R133): the foreign character of lowest index ends the operation
and is the one reported; no result register is written. That `LEVEL` still stands at the level of
that character, and `CODE_OUT` and `GIDX` are as they were, is this model's reading of 60_exceptions
R136 and 10_state R26 (notes/assumptions/4, DEDUCED; 93 U4 allows any value there). -/
def Obligations.FirstForeignCharacterReported : Prop :=
  ∀ (s : State) (code before after : List Ch) (ch : Ch),
    strip code = before ++ ch :: after → (strip code).length = 10 →
    (∀ c ∈ before, inv s.cfg.grid c ≠ none) → inv s.cfg.grid ch = none →
    ∃ t, exec (.decode code) s = .next t ∧ t.run = .done ∧
      t.res.status = 3 ∧ t.res.errinfo = ch ∧ t.work.level = before.length + 1 ∧
      DecodeFrame s t

/-- 41_decode R97 (and 30_encoding R59, R60): a valid code completes; the integers are the roundings
of the exact centroid and fit their registers, the strings are their renderings, and the response
has these six fields. That `LEVEL` stands at 10 afterwards (10_state R17, 41_decode R95), the final
window is still in `W`, and `CODE_OUT` and `GIDX` are as they were is this model's reading
(notes/assumptions/4, DEDUCED; 93 U4 allows any value there). -/
def Obligations.DecodeRendersTheCentroid : Prop :=
  ∀ (s : State) (code : List Ch), ValidCode s.cfg.grid code →
    ∃ t, exec (.decode code) s = .next t ∧ t.run = .done ∧
      t.res.status = 0 ∧ t.res.errinfo = 0 ∧ t.work.level = 10 ∧
      t.res.latC = (t.work.window.minLat + t.work.window.maxLat) / 2 ∧
      t.res.lonC = (t.work.window.minLon + t.work.window.maxLon) / 2 ∧
      t.res.latUdeg.toNat = round6 t.res.latC ∧ t.res.lonUdeg.toNat = round6 t.res.lonC ∧
      t.res.latStr = render6 t.res.latUdeg.toNat ∧ t.res.lonStr = render6 t.res.lonUdeg.toNat ∧
      (s.latch.op = 1 → response t = some (.ok (.decoded t.res.latC t.res.lonC t.res.latStr
        t.res.lonStr t.res.latUdeg t.res.lonUdeg))) ∧
      DecodeFrame s t

/-- 41_decode R100: DECODE changes only its working registers and the response, and operands with
equal canonical forms give equal responses. That `CODE_OUT`, `GIDX` and `VALID` are as they were when
it has ended, and after an error its own result registers, is this model's reading of 10_state R26
(notes/assumptions/4, DEDUCED; 93 U4 allows any value in a working register). -/
def Obligations.DecodeIsPure : Prop :=
  (∀ (s : State) (code : List Ch), ∃ t, exec (.decode code) s = .next t ∧ DecodeFrame s t) ∧
  (∀ (s s' : State) (code code' : List Ch), s.cfg = s'.cfg → strip code = strip code' →
    ∃ t t', exec (.decode code) s = .next t ∧ exec (.decode code') s' = .next t' ∧
      t.res.status = t'.res.status ∧ t.res.errinfo = t'.res.errinfo ∧
      (t.res.status = 0 →
        t.res.latC = t'.res.latC ∧ t.res.lonC = t'.res.lonC ∧
        t.res.latStr = t'.res.latStr ∧ t.res.lonStr = t'.res.lonStr ∧
        t.res.latUdeg = t'.res.latUdeg ∧ t.res.lonUdeg = t'.res.lonUdeg))

/-- 41_decode R99: the two narrowings are the same function of the window and the digit, so the same
sequence of digits takes ENCODE and DECODE through the same windows. -/
def Obligations.NarrowingsAgree : Prop :=
  (∀ (w : Window) (row col : Digit), w.maxLat = w.minLat + 4 * latDiv w ∧
    narrowDown w row col = narrowUp w row col) ∧
  (∀ (s t : State) (lat lon : ℚ) (hyph : Bool) (symbols : List Ch) (k : ℕ), k ≤ 10 →
    symbols.length = k →
    (∀ j, j < k → (symbols[j]?).bind (inv s.cfg.grid) =
      some (rowOf (encodeWindow lat lon hyph j s) lat, colOf (encodeWindow lat lon hyph j s) lon)) →
    decodeLevels symbols (startDecode s) = .ok t →
    t.work.window = encodeWindow lat lon hyph k s)

/-- 43_properties R120: DECODE in closed form, for a code whose symbols spell the digits
`(row k, col k)`, level 1 first. That the final window is still in `W` when DECODE has ended is this
model's reading (notes/assumptions/4, DEDUCED; 93 U4 allows any value there). -/
def Obligations.DecodeClosedForm : Prop :=
  ∀ (s : State) (code : List Ch) (row col : ℕ → Digit),
    (strip code).length = 10 →
    (∀ k, 1 ≤ k → k ≤ 10 →
      ((strip code)[k - 1]?).bind (inv s.cfg.grid) = some (row k, col k)) →
    let Rg : ℕ := ∑ k ∈ Finset.Icc 1 10, (row k).val * 4 ^ (10 - k)
    let Cg : ℕ := ∑ k ∈ Finset.Icc 1 10, (col k).val * 4 ^ (10 - k)
    ∃ t, exec (.decode code) s = .next t ∧ t.res.status = 0 ∧
      t.work.window.maxLat = 77 / 2 - Rg * cellSide ∧
      t.work.window.minLat = 77 / 2 - (Rg + 1) * cellSide ∧
      t.work.window.minLon = 127 / 2 + Cg * cellSide ∧
      t.work.window.maxLon = 127 / 2 + (Cg + 1) * cellSide ∧
      t.res.latC = 77 / 2 - (2 * Rg + 1) * (cellSide / 2) ∧
      t.res.latC = (20185088 - 9 * (2 * Rg + 1)) / 524288 ∧
      t.res.lonC = 127 / 2 + (2 * Cg + 1) * (cellSide / 2) ∧
      t.res.lonC = (33292288 + 9 * (2 * Cg + 1)) / 524288

/-- 43_properties R123: no DECODE result is a tie of `round6`, so every rounding to the nearest gives
the same integers. -/
def Obligations.NoRoundingTies : Prop :=
  ∀ (s : State) (code : List Ch), ValidCode s.cfg.grid code →
    ∃ t, exec (.decode code) s = .next t ∧ t.res.status = 0 ∧
      (∀ n : ℤ, t.res.latC * 10 ^ 6 ≠ n + 1 / 2 ∧ t.res.lonC * 10 ^ 6 ≠ n + 1 / 2) ∧
      (∀ n : ℤ, |t.res.latC * 10 ^ 6 - n| ≤ 1 / 2 ↔ n = t.res.latUdeg.toNat) ∧
      (∀ n : ℤ, |t.res.lonC * 10 ^ 6 - n| ≤ 1 / 2 ↔ n = t.res.lonUdeg.toNat)

/-- 43_properties R124: the range of DECODE results, strictly inside the Bounding Region, the lengths
of the strings, and the four extremes, reached by the corner cells. -/
def Obligations.DecodeResultRange : Prop :=
  (∀ (s : State) (code : List Ch), ValidCode s.cfg.grid code →
    ∃ t, exec (.decode code) s = .next t ∧ t.res.status = 0 ∧
      5 / 2 + cellSide / 2 ≤ t.res.latC ∧ t.res.latC ≤ 77 / 2 - cellSide / 2 ∧
      127 / 2 + cellSide / 2 ≤ t.res.lonC ∧ t.res.lonC ≤ 199 / 2 - cellSide / 2 ∧
      2500017 ≤ t.res.latUdeg.toNat ∧ t.res.latUdeg.toNat ≤ 38499983 ∧
      63500017 ≤ t.res.lonUdeg.toNat ∧ t.res.lonUdeg.toNat ≤ 99499983 ∧
      t.res.latStr.length = (if t.res.latUdeg.toNat < 10 * 10 ^ 6 then 8 else 9) ∧
      t.res.lonStr.length = 9) ∧
  (∀ s : State, gridAdmissible s.cfg.grid = true →
    ∃ t u, exec (.decode (List.replicate 10 (gridAt s.cfg.grid 0 0))) s = .next t ∧
      exec (.decode (List.replicate 10 (gridAt s.cfg.grid 3 3))) s = .next u ∧
      t.res.latC = 77 / 2 - cellSide / 2 ∧ t.res.lonC = 127 / 2 + cellSide / 2 ∧
      t.res.latUdeg = 38499983 ∧ t.res.lonUdeg = 63500017 ∧
      u.res.latC = 5 / 2 + cellSide / 2 ∧ u.res.lonC = 199 / 2 - cellSide / 2 ∧
      u.res.latUdeg = 2500017 ∧ u.res.lonUdeg = 99499983)

/-! ### Round trips -/

/-- 43_properties R121: from a coordinate to its code and back, within half a cell of the exact
centroid, with equality exactly on the edges of cells; within half a cell and half a
micro-degree of the rendered one; and the operand on which the bound with `<` fails. -/
def Obligations.CoordinateRoundTrip : Prop :=
  (∀ (s s' : State) (lat lon : ℚ) (hyph : Bool),
    gridAdmissible s.cfg.grid = true → s'.cfg = s.cfg → Accepted lat lon →
    ∃ t u, exec (.encode (.fin lat) (.fin lon) hyph) s = .next t ∧
      exec (.decode t.work.codeOut) s' = .next u ∧ u.res.status = 0 ∧
      |u.res.latC - lat| ≤ cellSide / 2 ∧ |u.res.lonC - lon| ≤ cellSide / 2 ∧
      |(u.res.latUdeg.toNat : ℚ) / 10 ^ 6 - lat| < cellSide / 2 + 5 / 10 ^ 7 ∧
      |(u.res.lonUdeg.toNat : ℚ) / 10 ^ 6 - lon| < cellSide / 2 + 5 / 10 ^ 7 ∧
      (|u.res.latC - lat| = cellSide / 2 ↔ ∃ n : ℤ, (lat - 5 / 2) / cellSide = n) ∧
      (|u.res.lonC - lon| = cellSide / 2 ↔ ∃ n : ℤ, (lon - 127 / 2) / cellSide = n)) ∧
  (∀ (s : State) (hyph : Bool), gridAdmissible s.cfg.grid = true →
    ∃ t u, exec (.encode (.fin (5 / 2 + 2 * cellSide)) (.fin (127 / 2 + 2 * cellSide)) hyph) s =
        .next t ∧
      exec (.decode t.work.codeOut) t = .next u ∧ u.res.latUdeg = 2500086 ∧
      cellSide / 2 < (u.res.latUdeg.toNat : ℚ) / 10 ^ 6 - (5 / 2 + 2 * cellSide))

/-- 43_properties R122: from a valid code to its rendered or exact centroid and back to the code, in
either rendered form; distinct canonical codes name distinct cells; `GIDX` is a bijection between
grid indexes and canonical codes. -/
def Obligations.CodeRoundTrip : Prop :=
  (∀ (s s' : State) (code : List Ch) (hyph : Bool),
    gridAdmissible s.cfg.grid = true → s'.cfg = s.cfg → ValidCode s.cfg.grid code →
    ∃ u t v, exec (.decode code) s = .next u ∧ u.res.status = 0 ∧
      exec (.encode (.fin (u.res.latUdeg.toNat / 10 ^ 6)) (.fin (u.res.lonUdeg.toNat / 10 ^ 6)) hyph)
        s' = .next t ∧ t.res.status = 0 ∧ t.work.codeOut = rendered hyph (strip code) ∧
      exec (.encode (.fin u.res.latC) (.fin u.res.lonC) hyph) s' = .next v ∧
      v.res.status = 0 ∧ v.work.codeOut = rendered hyph (strip code)) ∧
  (∀ (s : State) (code code' : List Ch),
    gridAdmissible s.cfg.grid = true → ValidCode s.cfg.grid code → ValidCode s.cfg.grid code' →
    strip code ≠ strip code' →
    ∃ t t', exec (.decode code) s = .next t ∧ exec (.decode code') s = .next t' ∧
      (t.res.latC, t.res.lonC) ≠ (t'.res.latC, t'.res.lonC)) ∧
  (∀ g : SymbolGrid, gridAdmissible g = true →
    (∀ x : GridIndex, ValidCode g (symbolsOf g x) ∧ strip (symbolsOf g x) = symbolsOf g x) ∧
    (∀ x y : GridIndex, symbolsOf g x = symbolsOf g y → x = y) ∧
    (∀ code : List Ch, ValidCode g code → ∃ x : GridIndex, symbolsOf g x = strip code))

/-- 43_properties R129: the centre of the Bounding Region, encoded and decoded, in any admissible
grid; and its code in the default grid. -/
def Obligations.CentreOfTheRegionExample : Prop :=
  ∀ s : State, gridAdmissible s.cfg.grid = true →
    ∃ t u, exec (.encode (.fin (205 / 10)) (.fin (815 / 10)) true) s = .next t ∧
      t.work.gidx = 0x6CCCCCCCCC ∧ exec (.decode t.work.codeOut) t = .next u ∧
      u.res.status = 0 ∧
      u.res.latC = 205 / 10 + cellSide / 2 ∧ u.res.latC = 10747913 / 524288 ∧
      u.res.lonC = 815 / 10 + cellSide / 2 ∧ u.res.lonC = 42729481 / 524288 ∧
      u.res.latStr = [0x32, 0x30, 0x2E, 0x35, 0x30, 0x30, 0x30, 0x31, 0x37] ∧
      u.res.lonStr = [0x38, 0x31, 0x2E, 0x35, 0x30, 0x30, 0x30, 0x31, 0x37] ∧
      (u.res.latUdeg.toNat : ℚ) / 10 ^ 6 - 205 / 10 = 17 / 10 ^ 6 ∧
      (u.res.lonUdeg.toNat : ℚ) / 10 ^ 6 - 815 / 10 = 17 / 10 ^ 6 ∧
      (17 / 10 ^ 6 : ℚ) < cellSide ∧
      (s.cfg.grid = gDefault → t.work.codeOut =
        [0x32, 0x4C, 0x4C, 0x2D, 0x4C, 0x4C, 0x4C, 0x2D, 0x4C, 0x4C, 0x4C, 0x4C])

/-! ### ISVALID -/

/-- 42_isvalid R105, R107: the verdict, `STATUS = OK` and `ERRINFO = 0` for every operand. That the
whole next state is this one, `CANON` the canonical form (R106) and every other working register as
it was (10_state R26), is this model's reading (notes/assumptions/4, DEDUCED; 93 U4 allows any value
there). -/
def Obligations.IsValidVerdict : Prop :=
  ∀ (s : State) (code : List Ch), ∃ v : Bool,
    exec (.isvalid code) s = .next { s with
      work := { s.work with canon := strip code }
      res := { s.res with status := 0, errinfo := 0, valid := v }
      run := .done } ∧
    (v = true ↔ (strip code).length = 10 ∧
      ∀ i, i < 10 → ((strip code)[i]?).bind (inv s.cfg.grid) ≠ none)

/-- 42_isvalid R108: ISVALID answers whether DECODE ends with `OK`. -/
def Obligations.IsValidAgreesWithDecode : Prop :=
  ∀ (s s' : State) (code : List Ch), s.cfg = s'.cfg →
    ∃ t u, exec (.isvalid code) s = .next t ∧ exec (.decode code) s' = .next u ∧
      (t.res.valid = true ↔ u.res.status = 0) ∧
      (t.res.valid = false ↔ u.res.status = 2 ∨ u.res.status = 3)

/-- 43_properties R127. -/
def Obligations.AlphabetRejectionExample : Prop :=
  ∀ s : State, gridAdmissible s.cfg.grid = true →
    ∃ t u, exec (.isvalid triplesOfA) s = .next t ∧ t.res.valid = false ∧
      exec (.decode triplesOfA) s = .next u ∧ u.res.status = 3 ∧ u.res.errinfo = 0x41

/-- 43_properties R128: DECODE and ISVALID depend on their operand only through its canonical form,
and accept both rendered forms of a valid code with the same results. That the whole next states
agree, working registers included, is this model's reading (notes/assumptions/4, DEDUCED; 93 U4
allows any value there). -/
def Obligations.SeparatorsDoNotMatter : Prop :=
  (∀ (s : State) (code code' : List Ch), strip code = strip code' →
    exec (.decode code) s = exec (.decode code') s ∧
    exec (.isvalid code) s = exec (.isvalid code') s) ∧
  (∀ (s : State) (code : List Ch), gridAdmissible s.cfg.grid = true →
    ValidCode s.cfg.grid code → ∀ hyph : Bool, ∃ t u v,
      exec (.isvalid (rendered hyph (strip code))) s = .next t ∧ t.res.valid = true ∧
      exec (.decode (rendered hyph (strip code))) s = .next u ∧ u.res.status = 0 ∧
      exec (.decode code) s = .next v ∧ u = v)

/-! ### Whole-machine rules -/

/-- 43_properties R113 (and 10_state R23, 70_reset R151): the response to a command that a waiting
unit accepts is a function of the command and of the constants, whatever ran before. That it is there
after two steps is this model's choice (notes/assumptions/8 and 9, DESIGN CHOICE). -/
def Obligations.ResponseDependsOnCommandAlone : Prop :=
  ∀ (s : State) (c : Command), Waiting s → c.header.extractLsb' 0 2 ≠ 3 →
    ∃ t, Host.Core.run core 2 (presenting c s) = .next t ∧
      response t = responseTo s.cfg c ∧ (response t).isSome = true

/-- 20_memory R39 (and 60_exceptions R137, R139): a queue of commands, whoever issued them, is worked
off in its order, and each gets the response it would get alone. That each takes three steps is this
model's choice (notes/assumptions/8 and 9, DESIGN CHOICE). -/
def Obligations.CommandsAnsweredInOrder : Prop :=
  ∀ s : State, Ready s → (∀ c ∈ s.host.commands, c.header.extractLsb' 0 2 ≠ 3) →
    ∃ t, Host.Core.run core (3 * s.host.commands.length) s = .next t ∧ Ready t ∧
      t.host.commands = [] ∧ t.cfg = s.cfg ∧
      t.host.taken.map some = s.host.taken.map some ++ s.host.commands.map (responseTo s.cfg)

/-- 20_memory R42 (and 10_state R10 to R13): no run changes the tables: a lookup after any number of
steps sees what it saw before them. -/
def Obligations.TablesNeverChange : Prop :=
  ∀ (n : ℕ) (s t : State), Host.Core.run core n s = .next t →
    t.cfg = s.cfg ∧ (∀ ch, inv t.cfg.grid ch = inv s.cfg.grid ch) ∧
    (∀ r c, gridAt t.cfg.grid r c = gridAt s.cfg.grid r c)

/-- 60_exceptions R134 (and 30_encoding R56): which operation can end how, and that each way it can
end is met. -/
def Obligations.EndingsByOperation : Prop :=
  (∀ (s : State) (lat lon : CoordNum) (hyph : Bool), ∃ t, exec (.encode lat lon hyph) s = .next t ∧
    (t.res.status = 0 ∨ t.res.status = 1)) ∧
  (∀ (s : State) (code : List Ch), ∃ t, exec (.decode code) s = .next t ∧
    (t.res.status = 0 ∨ t.res.status = 2 ∨ t.res.status = 3)) ∧
  (∀ (s : State) (code : List Ch), ∃ t, exec (.isvalid code) s = .next t ∧ t.res.status = 0) ∧
  (∀ s : State, gridAdmissible s.cfg.grid = true →
    (∃ lat lon hyph t, exec (.encode lat lon hyph) s = .next t ∧ t.res.status = 0) ∧
    (∃ lat lon hyph t, exec (.encode lat lon hyph) s = .next t ∧ t.res.status = 1) ∧
    (∃ code t, exec (.decode code) s = .next t ∧ t.res.status = 0) ∧
    (∃ code t, exec (.decode code) s = .next t ∧ t.res.status = 2) ∧
    (∃ code t, exec (.decode code) s = .next t ∧ t.res.status = 3))

/-- 70_reset R157: a command in flight ends with a response. That it does so at the very next step is
this model's choice (notes/assumptions/9, DESIGN CHOICE: an operation is one step), and that `LEVEL`
stands at 10 after an operation of ten levels is this model's reading of 10_state R17
(notes/assumptions/4, DEDUCED; 93 U4 allows any value there). -/
def Obligations.EveryCommandEnds : Prop :=
  ∀ s : State, s.host.resetPin = false → s.run = .busy → s.latch.op ≠ 3 →
    ∃ t, step s = .next t ∧ t.run = .done ∧ (response t).isSome = true ∧
      (t.latch.op ≠ 2 → t.res.status = 0 → t.work.level = 10)

/-- 60_exceptions R130, 30_encoding R61, 70_reset R155: a run stops only on a reserved operation: one
that presents none never stops, whatever the commands, their order and their errors. That a reserved
command is accepted, and the stop comes in `BUSY`, is this model's choice (notes/assumptions/17,
DESIGN CHOICE). -/
def Obligations.UnreservedRunsNeverStop : Prop :=
  (∀ s : State, (∃ t, step s = .next t) ∨
    (step s = .refused .reservedOperation ∧ s.run = .busy ∧ s.latch.op = 3)) ∧
  (∀ (n : ℕ) (s : State), (∀ c ∈ s.host.commands, c.header.extractLsb' 0 2 ≠ 3) →
    (s.run = .busy → s.latch.op ≠ 3) → safeRun n s)

/-- The model's own invariant (Safety.lean; basis 10_state R17, 30_encoding R47, R52, R55 to R57,
60_exceptions R134, 43_properties R114, R124): every step keeps the legal states. What it says of the
working registers after an operation is this model's reading (notes/assumptions/4, DEDUCED; 93 U4
allows any value there). That a step with reset asserted leads to a legal state rests on the values
this model gives the registers at reset (notes/assumptions/1, DESIGN CHOICE; 10_state R25 and
70_reset R150 leave them unspecified). -/
def Obligations.StepKeepsLegalStates : Prop :=
  ∀ s t : State, Legal s → step s = .next t → Legal t

/-- The reset state is legal. It rests on the values this model gives at reset to registers the spec
leaves unspecified (notes/assumptions/1, DESIGN CHOICE). -/
def Obligations.ResetStateIsLegal : Prop := Legal State.reset
end

