-- ==== Sys2Proof/Laws/Operands.lean ====
section
/-! SUPPORT. What the operand forms of Machine/Operands.lean can do, one lemma each. -/

namespace Sys2Proof.Machine

open Sys2Proof

/-! ### Coordinate operands -/

/-- The bits of a port are read whole, whatever its width. -/
@[simp] theorem coordVal_toNat (fmt : CoordFormat) (bits : BitVec fmt.width) :
    coordVal fmt bits.toNat = fmt.val bits := by
  simp [coordVal]

/-- Nothing beyond the port's width is read. -/
theorem coordVal_mod (fmt : CoordFormat) (bits : PortBits) :
    coordVal fmt (bits % 2 ^ fmt.width) = coordVal fmt bits := by
  unfold coordVal
  congr 1
  exact BitVec.eq_of_toNat_eq (by simp)

/-! ### Integers -/

theorem floorOf_eq (q : Rat) : floorOf q = ⌊q⌋ := rfl

theorem clampDigit_val (v : Int) : ((clampDigit v).val : Int) = clamp v 0 3 := by
  have : 0 ≤ clamp v 0 3 := by unfold clamp; split <;> [simp; (split <;> omega)]
  simp [clampDigit, this]

/-- A value in range is its own clamp. -/
theorem clampDigit_of_mem {v : Int} (h0 : 0 ≤ v) (h3 : v ≤ 3) :
    ((clampDigit v).val : Int) = v := by
  rw [clampDigit_val]; unfold clamp; split <;> [omega; (split <;> omega)]

/-! ### Tables -/

theorem mem_allCells (cell : Digit × Digit) : cell ∈ allCells := by
  revert cell; decide

/-- A lookup in `INV` hits a cell that holds the character, or misses because none does. -/
theorem inv_cases (g : SymbolGrid) (ch : Ch) :
    (∃ r c, inv g ch = some (r, c) ∧ gridAt g r c = ch) ∨
    (inv g ch = none ∧ ∀ r c, gridAt g r c ≠ ch) := by
  unfold inv
  cases h : allCells.find? (fun cell => gridAt g cell.1 cell.2 == ch) with
  | none =>
    refine .inr ⟨rfl, fun r c => ?_⟩
    simpa using List.find?_eq_none.mp h (r, c) (mem_allCells (r, c))
  | some cell =>
    exact .inl ⟨cell.1, cell.2, rfl, by simpa using List.find?_some h⟩

/-! ### The canonical form -/

@[simp] theorem strip_nil : strip [] = [] := rfl

@[simp] theorem strip_cons_sep (s : List Ch) : strip (SEP :: s) = strip s := by simp [strip]

theorem strip_cons_of_ne {c : Ch} (h : c ≠ SEP) (s : List Ch) : strip (c :: s) = c :: strip s := by
  simp [strip, h]

theorem strip_append (s t : List Ch) : strip (s ++ t) = strip s ++ strip t := by
  induction s with
  | nil => rfl
  | cons c s ih => by_cases h : c = SEP <;> simp [strip, h, ih]

theorem sep_not_mem_strip (s : List Ch) : SEP ∉ strip s := by
  induction s with
  | nil => simp
  | cons c s ih =>
    by_cases h : c = SEP
    · simpa [strip, h] using ih
    · simp [strip, h, ih, Ne.symm h]

theorem strip_of_not_mem {s : List Ch} (h : SEP ∉ s) : strip s = s := by
  induction s with
  | nil => rfl
  | cons c s ih =>
    simp only [List.mem_cons, not_or] at h
    rw [strip_cons_of_ne (Ne.symm h.1), ih h.2]

@[simp] theorem strip_strip (s : List Ch) : strip (strip s) = strip s :=
  strip_of_not_mem (sep_not_mem_strip s)

/-! ### The range check -/

/-- The checks of ENCODE pass exactly on a finite coordinate of the Bounding Region, and hand on that
coordinate. -/
theorem checkCoordinates_ok_iff {lat lon : CoordNum} {a b : Rat} :
    checkCoordinates lat lon = .ok (a, b) ↔
      lat = .fin a ∧ lon = .fin b ∧
      BR.minLat ≤ a ∧ a ≤ BR.maxLat ∧ BR.minLon ≤ b ∧ b ≤ BR.maxLon := by
  cases lat with
  | nonfinite => simp [checkCoordinates]
  | fin p =>
    cases lon with
    | nonfinite => simp [checkCoordinates]
    | fin q =>
      simp only [checkCoordinates]
      constructor
      · intro h
        split_ifs at h with h1 h2 h3 h4
        simp only [Except.ok.injEq, Prod.mk.injEq] at h
        obtain ⟨rfl, rfl⟩ := h
        exact ⟨rfl, rfl, not_lt.mp h1, not_lt.mp h2, not_lt.mp h3, not_lt.mp h4⟩
      · rintro ⟨h, h', h1, h2, h3, h4⟩
        cases h; cases h'
        simp [not_lt.mpr h1, not_lt.mpr h2, not_lt.mpr h3, not_lt.mpr h4]

/-! ### Windows -/

theorem narrowUp_latSide (w : Window) (row col : Digit) :
    (narrowUp w row col).maxLat - (narrowUp w row col).minLat = latDiv w := by
  simp only [narrowUp]; ring

theorem narrowUp_lonSide (w : Window) (row col : Digit) :
    (narrowUp w row col).maxLon - (narrowUp w row col).minLon = lonDiv w := by
  simp only [narrowUp]; ring

theorem narrowDown_latSide (w : Window) (row col : Digit) :
    (narrowDown w row col).maxLat - (narrowDown w row col).minLat = latDiv w := by
  simp only [narrowDown]; ring

theorem narrowDown_lonSide (w : Window) (row col : Digit) :
    (narrowDown w row col).maxLon - (narrowDown w row col).minLon = lonDiv w := by
  simp only [narrowDown]; ring

/-! ### Renderings -/

@[simp] theorem fixedDigits_length (k n : Nat) : (fixedDigits k n).length = k := by
  induction k generalizing n with
  | zero => rfl
  | succ k ih => simp [fixedDigits, ih]

end Sys2Proof.Machine
end

