-- ==== Sys2Proof/Laws/State.lean ====
section
/-! SUPPORT. One lemma per field of the state that an operation of Machine/Ops.lean writes or keeps,
each true by unfolding, so that no later proof unfolds a record update. -/

namespace Sys2Proof.Machine

open Sys2Proof

variable (s : State)

/-! ### accept -/

@[simp] theorem accept_cfg (c : Command) : (accept c s).cfg = s.cfg := rfl
@[simp] theorem accept_work (c : Command) : (accept c s).work = s.work := rfl
@[simp] theorem accept_res (c : Command) : (accept c s).res = s.res := rfl
@[simp] theorem accept_run (c : Command) : (accept c s).run = .busy := rfl
@[simp] theorem accept_host (c : Command) : (accept c s).host = s.host := rfl
@[simp] theorem accept_op (c : Command) : (accept c s).latch.op = c.op := rfl
@[simp] theorem accept_hyph (c : Command) : (accept c s).latch.hyph = c.hyph := rfl
@[simp] theorem accept_codeIn (c : Command) : (accept c s).latch.codeIn = c.codeIn := rfl

/-! ### startEncode and encodeLevel -/

@[simp] theorem startEncode_cfg : (startEncode s).cfg = s.cfg := rfl
@[simp] theorem startEncode_latch : (startEncode s).latch = s.latch := rfl
@[simp] theorem startEncode_res : (startEncode s).res = s.res := rfl
@[simp] theorem startEncode_run : (startEncode s).run = s.run := rfl
@[simp] theorem startEncode_host : (startEncode s).host = s.host := rfl
@[simp] theorem startEncode_canon : (startEncode s).work.canon = s.work.canon := rfl
@[simp] theorem startEncode_window : (startEncode s).work.window = BR := rfl
@[simp] theorem startEncode_level : (startEncode s).work.level = 1 := rfl
@[simp] theorem startEncode_codeOut : (startEncode s).work.codeOut = [] := rfl
@[simp] theorem startEncode_gidx : (startEncode s).work.gidx = 0 := rfl

section
variable (lat lon : Rat) (hyph : Bool)

@[simp] theorem encodeLevel_cfg : (encodeLevel lat lon hyph s).cfg = s.cfg := rfl
@[simp] theorem encodeLevel_latch : (encodeLevel lat lon hyph s).latch = s.latch := rfl
@[simp] theorem encodeLevel_res : (encodeLevel lat lon hyph s).res = s.res := rfl
@[simp] theorem encodeLevel_run : (encodeLevel lat lon hyph s).run = s.run := rfl
@[simp] theorem encodeLevel_host : (encodeLevel lat lon hyph s).host = s.host := rfl
@[simp] theorem encodeLevel_canon : (encodeLevel lat lon hyph s).work.canon = s.work.canon := rfl
@[simp] theorem encodeLevel_window : (encodeLevel lat lon hyph s).work.window =
    narrowUp s.work.window (rowOf s.work.window lat) (colOf s.work.window lon) := rfl
@[simp] theorem encodeLevel_level :
    (encodeLevel lat lon hyph s).work.level = nextLevel s.work.level := rfl
@[simp] theorem encodeLevel_codeOut : (encodeLevel lat lon hyph s).work.codeOut =
    s.work.codeOut ++ levelOutput hyph s.work.level
      (gridAt s.cfg.grid (rowOf s.work.window lat) (colOf s.work.window lon)) := rfl
@[simp] theorem encodeLevel_gidx : (encodeLevel lat lon hyph s).work.gidx =
    s.work.gidx * 16 +
      BitVec.ofNat 40 (digitValue (rowOf s.work.window lat) (colOf s.work.window lon)) := rfl

end

/-! ### writeCanon, startDecode, decodeLevel, writeCentroid, writeValid -/

@[simp] theorem writeCanon_cfg (code : List Ch) : (writeCanon code s).cfg = s.cfg := rfl
@[simp] theorem writeCanon_latch (code : List Ch) : (writeCanon code s).latch = s.latch := rfl
@[simp] theorem writeCanon_res (code : List Ch) : (writeCanon code s).res = s.res := rfl
@[simp] theorem writeCanon_run (code : List Ch) : (writeCanon code s).run = s.run := rfl
@[simp] theorem writeCanon_host (code : List Ch) : (writeCanon code s).host = s.host := rfl
@[simp] theorem writeCanon_canon (code : List Ch) :
    (writeCanon code s).work.canon = strip code := rfl
@[simp] theorem writeCanon_level (code : List Ch) :
    (writeCanon code s).work.level = s.work.level := rfl
@[simp] theorem writeCanon_window (code : List Ch) :
    (writeCanon code s).work.window = s.work.window := rfl
@[simp] theorem writeCanon_codeOut (code : List Ch) :
    (writeCanon code s).work.codeOut = s.work.codeOut := rfl
@[simp] theorem writeCanon_gidx (code : List Ch) :
    (writeCanon code s).work.gidx = s.work.gidx := rfl

@[simp] theorem startDecode_cfg : (startDecode s).cfg = s.cfg := rfl
@[simp] theorem startDecode_latch : (startDecode s).latch = s.latch := rfl
@[simp] theorem startDecode_res : (startDecode s).res = s.res := rfl
@[simp] theorem startDecode_run : (startDecode s).run = s.run := rfl
@[simp] theorem startDecode_host : (startDecode s).host = s.host := rfl
@[simp] theorem startDecode_canon : (startDecode s).work.canon = s.work.canon := rfl
@[simp] theorem startDecode_codeOut : (startDecode s).work.codeOut = s.work.codeOut := rfl
@[simp] theorem startDecode_gidx : (startDecode s).work.gidx = s.work.gidx := rfl
@[simp] theorem startDecode_window : (startDecode s).work.window = BR := rfl
@[simp] theorem startDecode_level : (startDecode s).work.level = 1 := rfl

@[simp] theorem decodeLevel_cfg (row col : Digit) : (decodeLevel row col s).cfg = s.cfg := rfl
@[simp] theorem decodeLevel_latch (row col : Digit) :
    (decodeLevel row col s).latch = s.latch := rfl
@[simp] theorem decodeLevel_res (row col : Digit) : (decodeLevel row col s).res = s.res := rfl
@[simp] theorem decodeLevel_run (row col : Digit) : (decodeLevel row col s).run = s.run := rfl
@[simp] theorem decodeLevel_host (row col : Digit) : (decodeLevel row col s).host = s.host := rfl
@[simp] theorem decodeLevel_canon (row col : Digit) :
    (decodeLevel row col s).work.canon = s.work.canon := rfl
@[simp] theorem decodeLevel_codeOut (row col : Digit) :
    (decodeLevel row col s).work.codeOut = s.work.codeOut := rfl
@[simp] theorem decodeLevel_gidx (row col : Digit) :
    (decodeLevel row col s).work.gidx = s.work.gidx := rfl
@[simp] theorem decodeLevel_window (row col : Digit) :
    (decodeLevel row col s).work.window = narrowDown s.work.window row col := rfl
@[simp] theorem decodeLevel_level (row col : Digit) :
    (decodeLevel row col s).work.level = nextLevel s.work.level := rfl

@[simp] theorem writeCentroid_cfg : (writeCentroid s).cfg = s.cfg := rfl
@[simp] theorem writeCentroid_latch : (writeCentroid s).latch = s.latch := rfl
@[simp] theorem writeCentroid_work : (writeCentroid s).work = s.work := rfl
@[simp] theorem writeCentroid_run : (writeCentroid s).run = s.run := rfl
@[simp] theorem writeCentroid_host : (writeCentroid s).host = s.host := rfl
@[simp] theorem writeCentroid_valid : (writeCentroid s).res.valid = s.res.valid := rfl
@[simp] theorem writeCentroid_latC : (writeCentroid s).res.latC =
    (s.work.window.minLat + s.work.window.maxLat) / 2 := rfl
@[simp] theorem writeCentroid_lonC : (writeCentroid s).res.lonC =
    (s.work.window.minLon + s.work.window.maxLon) / 2 := rfl

@[simp] theorem writeValid_cfg (v : Bool) : (writeValid v s).cfg = s.cfg := rfl
@[simp] theorem writeValid_latch (v : Bool) : (writeValid v s).latch = s.latch := rfl
@[simp] theorem writeValid_work (v : Bool) : (writeValid v s).work = s.work := rfl
@[simp] theorem writeValid_run (v : Bool) : (writeValid v s).run = s.run := rfl
@[simp] theorem writeValid_host (v : Bool) : (writeValid v s).host = s.host := rfl
@[simp] theorem writeValid_valid (v : Bool) : (writeValid v s).res.valid = v := rfl

/-! ### The two ends of an operation, the taking of a response, reset -/

@[simp] theorem respondOk_cfg : (respondOk s).cfg = s.cfg := rfl
@[simp] theorem respondOk_latch : (respondOk s).latch = s.latch := rfl
@[simp] theorem respondOk_work : (respondOk s).work = s.work := rfl
@[simp] theorem respondOk_run : (respondOk s).run = .done := rfl
@[simp] theorem respondOk_host : (respondOk s).host = s.host := rfl
@[simp] theorem respondOk_latC : (respondOk s).res.latC = s.res.latC := rfl
@[simp] theorem respondOk_lonC : (respondOk s).res.lonC = s.res.lonC := rfl
@[simp] theorem respondOk_latStr : (respondOk s).res.latStr = s.res.latStr := rfl
@[simp] theorem respondOk_lonStr : (respondOk s).res.lonStr = s.res.lonStr := rfl
@[simp] theorem respondOk_latUdeg : (respondOk s).res.latUdeg = s.res.latUdeg := rfl
@[simp] theorem respondOk_lonUdeg : (respondOk s).res.lonUdeg = s.res.lonUdeg := rfl
@[simp] theorem respondOk_valid : (respondOk s).res.valid = s.res.valid := rfl

@[simp] theorem raiseError_cfg (e : ErrorKind) : (raiseError e s).cfg = s.cfg := rfl
@[simp] theorem raiseError_latch (e : ErrorKind) : (raiseError e s).latch = s.latch := rfl
@[simp] theorem raiseError_work (e : ErrorKind) : (raiseError e s).work = s.work := rfl
@[simp] theorem raiseError_run (e : ErrorKind) : (raiseError e s).run = .done := rfl
@[simp] theorem raiseError_host (e : ErrorKind) : (raiseError e s).host = s.host := rfl
@[simp] theorem raiseError_latC (e : ErrorKind) : (raiseError e s).res.latC = s.res.latC := rfl
@[simp] theorem raiseError_lonC (e : ErrorKind) : (raiseError e s).res.lonC = s.res.lonC := rfl
@[simp] theorem raiseError_latStr (e : ErrorKind) :
    (raiseError e s).res.latStr = s.res.latStr := rfl
@[simp] theorem raiseError_lonStr (e : ErrorKind) :
    (raiseError e s).res.lonStr = s.res.lonStr := rfl
@[simp] theorem raiseError_latUdeg (e : ErrorKind) :
    (raiseError e s).res.latUdeg = s.res.latUdeg := rfl
@[simp] theorem raiseError_lonUdeg (e : ErrorKind) :
    (raiseError e s).res.lonUdeg = s.res.lonUdeg := rfl
@[simp] theorem raiseError_valid (e : ErrorKind) : (raiseError e s).res.valid = s.res.valid := rfl

@[simp] theorem takeResponse_cfg : (takeResponse s).cfg = s.cfg := rfl
@[simp] theorem takeResponse_latch : (takeResponse s).latch = s.latch := rfl
@[simp] theorem takeResponse_work : (takeResponse s).work = s.work := rfl
@[simp] theorem takeResponse_res : (takeResponse s).res = s.res := rfl
@[simp] theorem takeResponse_run : (takeResponse s).run = .idle := rfl
@[simp] theorem takeResponse_taken :
    (takeResponse s).host.taken = s.host.taken ++ (response s).toList := rfl
@[simp] theorem takeResponse_commands :
    (takeResponse s).host.commands = s.host.commands := rfl
@[simp] theorem takeResponse_takes : (takeResponse s).host.takes = s.host.takes := rfl
@[simp] theorem takeResponse_resetPin : (takeResponse s).host.resetPin = s.host.resetPin := rfl

@[simp] theorem assertReset_cfg : (assertReset s).cfg = s.cfg := rfl
@[simp] theorem assertReset_latch : (assertReset s).latch = .reset := rfl
@[simp] theorem assertReset_work : (assertReset s).work = .reset := rfl
@[simp] theorem assertReset_res : (assertReset s).res = .reset := rfl
@[simp] theorem assertReset_run : (assertReset s).run = .idle := rfl
@[simp] theorem assertReset_host : (assertReset s).host = s.host := rfl

end Sys2Proof.Machine
end

