-- ==== Sys2Proof/Laws/Ops.lean ====
section
/-! SUPPORT. What the loops, the two ends of an operation and `exec` can do, said once. -/

namespace Sys2Proof.Machine

open Sys2Proof

/-! ### The levels of ENCODE -/

/-- Unfolding at the last level instead of the first. -/
theorem encodeLevels_succ (lat lon : Rat) (hyph : Bool) (n : Nat) (s : State) :
    encodeLevels lat lon hyph (n + 1) s =
      encodeLevel lat lon hyph (encodeLevels lat lon hyph n s) := by
  induction n generalizing s with
  | zero => rfl
  | succ n ih => exact ih (encodeLevel lat lon hyph s)

/-- The levels of ENCODE write the window, the level, the code and the grid index, nothing else. -/
theorem encodeLevels_frame (lat lon : Rat) (hyph : Bool) (n : Nat) (s : State) :
    encodeLevels lat lon hyph n s =
      { s with work := { (encodeLevels lat lon hyph n s).work with canon := s.work.canon } } := by
  induction n generalizing s with
  | zero => rfl
  | succ n ih => exact ih (encodeLevel lat lon hyph s)

/-- After `n ≤ 9` levels from level 1 the counter stands at level `n + 1`. -/
theorem encodeLevels_level (lat lon : Rat) (hyph : Bool) {n : Nat} (s : State) (h : n ≤ 9) :
    (encodeLevels lat lon hyph n (startEncode s)).work.level = n + 1 := by
  induction n with
  | zero => rfl
  | succ n ih => simp [encodeLevels_succ, ih (by omega), nextLevel, LEVELS]; omega

/-! ### The levels of DECODE -/

/-- The levels of DECODE write the window and the level, nothing else, however they end. -/
theorem decodeLevels_frame (symbols : List Ch) (s : State) :
    match decodeLevels symbols s with
    | .ok t => t =
        { s with work := { s.work with window := t.work.window, level := t.work.level } }
    | .error (_, t) => t =
        { s with work := { s.work with window := t.work.window, level := t.work.level } } := by
  induction symbols generalizing s with
  | nil => rfl
  | cons ch rest ih =>
    unfold decodeLevels
    cases inv s.cfg.grid ch with
    | none => rfl
    | some cell => exact ih (decodeLevel cell.1 cell.2 s)

/-- The levels of DECODE over two sequences of symbols, one after the other. -/
theorem decodeLevels_append (l m : List Ch) (s : State) :
    decodeLevels (l ++ m) s =
      match decodeLevels l s with
      | .ok t => decodeLevels m t
      | .error e => .error e := by
  induction l generalizing s with
  | nil => rfl
  | cons ch rest ih =>
    simp only [List.cons_append, decodeLevels]
    cases inv s.cfg.grid ch with
    | none => rfl
    | some cell => exact ih (decodeLevel cell.1 cell.2 s)

/-- The levels of DECODE run to their end exactly when every character is a symbol. -/
theorem decodeLevels_ok_iff (symbols : List Ch) (s : State) :
    (∃ t, decodeLevels symbols s = .ok t) ↔ allSymbols s.cfg.grid symbols = true := by
  induction symbols generalizing s with
  | nil => simp [decodeLevels, allSymbols]
  | cons ch rest ih =>
    unfold decodeLevels
    cases h : inv s.cfg.grid ch with
    | none => simp [allSymbols, h]
    | some cell =>
      have := ih (decodeLevel cell.1 cell.2 s)
      simpa [allSymbols, h] using this

/-- Where the levels of DECODE end early, the character is the first that is no symbol. -/
theorem decodeLevels_error {symbols : List Ch} {s t : State} {ch : Ch}
    (h : decodeLevels symbols s = .error (ch, t)) :
    ∃ before after, symbols = before ++ ch :: after ∧
      allSymbols s.cfg.grid before = true ∧ inv s.cfg.grid ch = none := by
  induction symbols generalizing s with
  | nil => simp [decodeLevels] at h
  | cons c rest ih =>
    unfold decodeLevels at h
    cases hc : inv s.cfg.grid c with
    | none =>
      simp only [hc, Except.error.injEq, Prod.mk.injEq] at h
      exact ⟨[], rest, by simp [h.1], by simp [allSymbols], by rw [← h.1]; exact hc⟩
    | some cell =>
      simp only [hc] at h
      obtain ⟨before, after, rfl, hb, hn⟩ := ih h
      exact ⟨c :: before, after, rfl, by simpa [allSymbols, hc] using hb, hn⟩

/-! ### Operations -/

/-- Every operation completes: `exec` answers a next state, in `DONE`, and leaves the parameters, the
latches and the host's side as they were. -/
theorem exec_next (i : Instr) (s : State) :
    ∃ t, exec i s = .next t ∧ t.run = .done ∧ t.cfg = s.cfg ∧ t.latch = s.latch ∧
      t.host = s.host := by
  cases i with
  | encode lat lon hyph =>
    simp only [exec, execEncode]
    cases checkCoordinates lat lon with
    | error b => exact ⟨_, rfl, rfl, rfl, rfl, rfl⟩
    | ok p =>
      refine ⟨_, rfl, rfl, ?_⟩
      rw [encodeLevels_frame]
      exact ⟨rfl, rfl, rfl⟩
  | decode code =>
    simp only [exec, execDecode]
    split
    · exact ⟨_, rfl, rfl, rfl, rfl, rfl⟩
    · refine ⟨_, rfl, ?_⟩
      have h := decodeLevels_frame (writeCanon code s).work.canon (startDecode (writeCanon code s))
      unfold decodeSymbols
      cases hd : decodeLevels (writeCanon code s).work.canon (startDecode (writeCanon code s)) with
      | error p => simp only [hd] at h; simp only; rw [h]; exact ⟨rfl, rfl, rfl, rfl⟩
      | ok t => simp only [hd] at h; simp only; rw [h]; exact ⟨rfl, rfl, rfl, rfl⟩
  | isvalid code => exact ⟨_, rfl, rfl, rfl, rfl, rfl⟩

end Sys2Proof.Machine
end

