-- ==== Sys2Proof/Laws/PerInstr.lean ====
section
/-! SUPPORT. Statements about every operation as syntax, one lemma per constructor. -/

namespace Sys2Proof

/-- The header written for an operation names that operation, on a port of any format: never the
reserved code, and read back with the operands its fields carry (30_encoding R54, R61). -/
def Laws.EncodedHeader.Statement (i : Instr) : Prop :=
  (encode i).op ≠ 3 ∧
  ∀ fmt : CoordFormat, decode fmt (encode i) = .ok (match i with
    | .encode _ _ hyph =>
      .encode (coordVal fmt (encode i).lat) (coordVal fmt (encode i).lon) hyph
    | .decode code => .decode code
    | .isvalid code => .isvalid code)

theorem Laws.EncodedHeader.encode (lat lon : CoordNum) (hyph : Bool) :
    Laws.EncodedHeader.Statement (.encode lat lon hyph) := by
  cases hyph <;>
    simp [Laws.EncodedHeader.Statement, Sys2Proof.encode, Sys2Proof.decode, decodeFields,
      Command.op, Command.hyph, headerOf, opEncode]

theorem Laws.EncodedHeader.decode (code : List Ch) :
    Laws.EncodedHeader.Statement (.decode code) := by
  simp [Laws.EncodedHeader.Statement, Sys2Proof.encode, Sys2Proof.decode, decodeFields,
    Command.op, headerOf, opEncode, opDecode]

theorem Laws.EncodedHeader.isvalid (code : List Ch) :
    Laws.EncodedHeader.Statement (.isvalid code) := by
  simp [Laws.EncodedHeader.Statement, Sys2Proof.encode, Sys2Proof.decode, decodeFields,
    Command.op, headerOf, opEncode, opDecode, opIsValid]

end Sys2Proof
end

