-- ==== Sys2Proof/Laws/Step.lean ====
section
/-! SUPPORT. Everything a step can do. -/

namespace Sys2Proof.Machine

open Sys2Proof

/-- If a step answers a next state, it was a reset, an acceptance, an operation, the taking of a
response, or a wait. -/
theorem step_cases {s t : State} (h : step s = .next t) :
    (s.host.resetPin = true ∧ t = assertReset s) ∨
    (s.host.resetPin = false ∧
      ((s.run = .idle ∧ s.host.commands = [] ∧ t = s) ∨
       (∃ c rest, s.run = .idle ∧ s.host.commands = c :: rest ∧
          t = accept c { s with host := { s.host with commands := rest } }) ∨
       (∃ i, s.run = .busy ∧ decodeLatches s.latch = .ok i ∧ exec i s = .next t) ∨
       (s.run = .done ∧ s.host.takes = true ∧ t = takeResponse s) ∨
       (s.run = .done ∧ s.host.takes = false ∧ t = s))) := by
  unfold step at h
  cases hr : s.host.resetPin with
  | true =>
    simp only [hr, if_true, Host.Outcome.next.injEq] at h
    exact .inl ⟨rfl, h.symm⟩
  | false =>
    refine .inr ⟨rfl, ?_⟩
    simp only [hr, Bool.false_eq_true, if_false] at h
    cases hrun : s.run with
    | idle =>
      cases hc : s.host.commands with
      | nil => simp only [hrun, hc, Host.Outcome.next.injEq] at h; exact .inl ⟨rfl, rfl, h.symm⟩
      | cons c rest =>
        simp only [hrun, hc, Host.Outcome.next.injEq] at h
        subst h
        exact .inr (.inl ⟨c, rest, rfl, rfl, by simp [hr]⟩)
    | busy =>
      simp only [hrun] at h
      cases hd : decodeLatches s.latch with
      | ok i => simp only [hd] at h; exact .inr (.inr (.inl ⟨i, rfl, rfl, h⟩))
      | error e => cases e; simp [hd] at h
    | done =>
      cases ht : s.host.takes with
      | true =>
        simp only [hrun, ht, if_true, Host.Outcome.next.injEq] at h
        exact .inr (.inr (.inr (.inl ⟨rfl, rfl, h.symm⟩)))
      | false =>
        simp only [hrun, ht, Bool.false_eq_true, if_false, Host.Outcome.next.injEq] at h
        exact .inr (.inr (.inr (.inr ⟨rfl, rfl, h.symm⟩)))

/-- No step changes the parameters. -/
theorem step_cfg {s t : State} (h : step s = .next t) : t.cfg = s.cfg := by
  rcases step_cases h with ⟨-, rfl⟩ | ⟨-, h⟩
  · rfl
  · rcases h with ⟨-, -, rfl⟩ | ⟨c, rest, -, -, rfl⟩ | ⟨i, -, -, hi⟩ | ⟨-, -, rfl⟩ | ⟨-, -, rfl⟩
    · rfl
    · rfl
    · obtain ⟨u, hu, -, hc, -, -⟩ := exec_next i s
      rw [hi] at hu; cases hu; exact hc
    · rfl
    · rfl

/-- Decoding the latches fails on the reserved operation code and on no other. -/
theorem decodeLatches_error_iff (l : Latches) :
    decodeLatches l = .error .reservedOp ↔ l.op = 3 := by
  have h : l.op = 0 ∨ l.op = 1 ∨ l.op = 2 ∨ l.op = 3 := by
    generalize l.op = o; revert o; decide
  rcases h with h | h | h | h <;>
    simp [decodeLatches, decodeFields, h, opEncode, opDecode, opIsValid]

end Sys2Proof.Machine
end

