-- ==== Sys2Proof/Laws/Subdivision.lean ====
section
/-! SUPPORT. The arithmetic of one level of the subdivision, and bounds on round6. -/

namespace Sys2Proof.Machine

open Sys2Proof

/-- Refining a grid of `4^k` cells over a span of 36 to one of `4^(k+1)`: with `a` the index of the
cell that holds `x`, cut at the last cell, and `f` the floor that one level computes inside that
cell, the finer index is `4*a + min f 3`; `f` is in `0 .. 4`, and 4 only at the far end. -/
theorem index_refines (x : ℚ) (h0 : 0 ≤ x) (h1 : x ≤ 36) (k : ℕ) :
    let a := min ⌊x / (36 / 4 ^ k)⌋ (4 ^ k - 1)
    let f := ⌊(x - a * (36 / 4 ^ k)) / (36 / 4 ^ (k + 1))⌋
    0 ≤ a ∧ 0 ≤ f ∧ f ≤ 4 ∧ (f = 4 ↔ x = 36) ∧
      min ⌊x / (36 / 4 ^ (k + 1))⌋ (4 ^ (k + 1) - 1) = 4 * a + min f 3 := by
  intro a f
  have e1 : x / (36 / 4 ^ k) = x * 4 ^ k / 36 := by field_simp
  have e2 : x / (36 / 4 ^ (k + 1)) = 4 * (x * 4 ^ k / 36) := by rw [pow_succ]; field_simp
  set y := x * 4 ^ k / 36 with hy
  have y0 : 0 ≤ y := by positivity
  have y1 : y ≤ 4 ^ k := by
    rw [hy, div_le_iff₀ (by norm_num)]
    have : (0 : ℚ) < 4 ^ k := by positivity
    nlinarith
  have yx : y = 4 ^ k ↔ x = 36 := by
    rw [hy, div_eq_iff (by norm_num)]
    constructor
    · intro h
      have : (0 : ℚ) < 4 ^ k := by positivity
      nlinarith
    · rintro rfl; ring
  have e3 : (x - a * (36 / 4 ^ k)) / (36 / 4 ^ (k + 1)) = 4 * (y - a) := by
    rw [hy, pow_succ]; field_simp
  have ha : a = min ⌊y⌋ (4 ^ k - 1) := by simp only [a, e1]
  have hf : f = ⌊4 * (y - a)⌋ := by simp only [f, e3]
  have hp : (1 : ℤ) ≤ 4 ^ k := by exact_mod_cast Nat.one_le_pow _ _ (by norm_num)
  rw [e2]
  by_cases c : y = 4 ^ k
  · have fl : ⌊y⌋ = 4 ^ k := by rw [c]; exact_mod_cast Int.floor_intCast (4 ^ k : ℤ)
    have ea : a = 4 ^ k - 1 := by rw [ha, fl]; omega
    have ef : f = 4 := by
      rw [hf, ea, c]; push_cast
      rw [show (4 : ℚ) * (4 ^ k - (4 ^ k - 1)) = ((4 : ℤ) : ℚ) by push_cast; ring,
        Int.floor_intCast]
    refine ⟨by omega, by omega, by omega, by simp [ef, ← yx, c], ?_⟩
    have : ⌊4 * y⌋ = 4 * 4 ^ k := by rw [c]; exact_mod_cast Int.floor_intCast (4 * 4 ^ k : ℤ)
    rw [this, ef, ea, pow_succ]; omega
  · have fl : ⌊y⌋ ≤ 4 ^ k - 1 := by
      have : ⌊y⌋ < 4 ^ k := by rw [Int.floor_lt]; push_cast; exact lt_of_le_of_ne y1 c
      omega
    have ea : a = ⌊y⌋ := by rw [ha]; omega
    have a0 : 0 ≤ ⌊y⌋ := Int.floor_nonneg.mpr y0
    have b1 := Int.floor_le y
    have b2 := Int.lt_floor_add_one y
    have f0 : 0 ≤ f := by rw [hf, ea]; apply Int.floor_nonneg.mpr; linarith
    have f3 : f < 4 := by rw [hf, ea, Int.floor_lt]; push_cast; linarith
    have e : ⌊4 * y⌋ = 4 * ⌊y⌋ + f := by
      rw [hf, ea, show 4 * y = 4 * (y - ⌊y⌋) + ((4 * ⌊y⌋ : ℤ) : ℚ) by push_cast; ring,
        Int.floor_add_intCast]
      ring
    refine ⟨by omega, f0, by omega, ?_, ?_⟩
    · rw [← yx]; simp [c]; omega
    · rw [e, ea, pow_succ]; omega

/-- `round6` is at least every integer that is at most half a unit above the exact value. -/
theorem le_round6 {q : ℚ} {m : ℕ} (h : (m : ℚ) - 1 / 2 ≤ q * 10 ^ 6) : m ≤ round6 q := by
  unfold round6
  have : (m : ℤ) ≤ floorOf (q * 10 ^ 6 + 1 / 2) := by
    rw [floorOf_eq, Int.le_floor]; push_cast; linarith
  omega

/-- `round6` is at most every integer that is less than half a unit below the exact value. -/
theorem round6_le {q : ℚ} {m : ℕ} (h : q * 10 ^ 6 < (m : ℚ) + 1 / 2) : round6 q ≤ m := by
  unfold round6
  have : floorOf (q * 10 ^ 6 + 1 / 2) < m + 1 := by
    rw [floorOf_eq, Int.floor_lt]; push_cast; linarith
  omega

end Sys2Proof.Machine
end

