-- ==== Sys2Proof/Tests/Slice0.lean ====
section
/-! SUPPORT. The model's own tests, their expected values taken from the spec's encodings and from
spec/95_test_vectors.md, and for every obligation with hypotheses a witness that meets them. -/

namespace Sys2Proof.Tests

open Sys2Proof Sys2Proof.Machine Sys2Proof.Claims

/-! ### Helpers -/

/-- The state an operation leads to. -/
def after (i : Instr) (s : State) : Option State :=
  match exec i s with
  | .next t => some t
  | .fault _ => none
  | .refused _ => none

/-- The state `n` steps lead to. -/
def afterSteps (n : Nat) (s : State) : Option State :=
  match Host.Core.run core n s with
  | .next t => some t
  | .fault _ => none
  | .refused _ => none

theorem run_of_afterSteps {n : Nat} {s : State} (h : (afterSteps n s).isSome = true) :
    ∃ t, Host.Core.run core n s = .next t := by
  unfold afterSteps at h
  split at h
  · exact ⟨_, by assumption⟩
  · simp at h
  · simp at h

/-- Whether the next step refuses. -/
def stepRefused (s : State) : Option Refusal :=
  match step s with
  | .refused r => some r
  | .next _ => none
  | .fault _ => none

/-- Right after reset, with `c` accepted. -/
def busyWith (c : Command) : State := accept c State.reset

/-- Right after reset, with reset still asserted. -/
def heldInReset : State := { State.reset with host := { State.reset.host with resetPin := true } }

/-- A response to the operation `op` that waits to be taken, with the given status. -/
def doneWith (op : BitVec 2) (status : BitVec 2) (takes : Bool) : State :=
  { State.reset with
    latch := { State.reset.latch with op := op }
    res := { State.reset.res with status := status }
    run := .done
    host := { State.reset.host with takes := takes } }

/-- `"39J-49L-L8T4"`, bytes of 95_test_vectors P1. -/
def delhi : List Ch := [0x33, 0x39, 0x4A, 0x2D, 0x34, 0x39, 0x4C, 0x2D, 0x4C, 0x38, 0x54, 0x34]

/-- `"39J49LL8T4"`, bytes of 95_test_vectors P2. -/
def delhiPlain : List Ch := [0x33, 0x39, 0x4A, 0x34, 0x39, 0x4C, 0x4C, 0x38, 0x54, 0x34]

/-- `"39J-4AL-LBT4"` (95_test_vectors V-X18). -/
def twoForeign : List Ch :=
  [0x33, 0x39, 0x4A, 0x2D, 0x34, 0x41, 0x4C, 0x2D, 0x4C, 0x42, 0x54, 0x34]

/-- `ENCODE 28.622788, 77.213033, 1` as 95_test_vectors P1 writes it on a binary64 port. -/
def delhiCommand : Command :=
  { header := 0b100, lat := 0x403C9F6F08CC575C, lon := 0x40534DA25529FE00, codeIn := [] }

/-- `ISVALID "39J49LL8T4"` (95_test_vectors P2, step 4). -/
def validCommand : Command := { header := 0b010, lat := 0, lon := 0, codeIn := delhiPlain }

/-- `DECODE "39J-49L-L8T4"` (95_test_vectors P1, step 2). -/
def decodeCommand : Command := { header := 0b001, lat := 0, lon := 0, codeIn := delhi }

/-- A reserved command (95_test_vectors P4, step 4). -/
def reservedCommand : Command := { header := 0b011, lat := 0, lon := 0, codeIn := [] }

/-! ### Well-formedness -/

/-- A third is no binary64 value, so no port carries it as a latitude. -/
theorem test_wellFormed_refuses_latitude :
    (Instr.encode (.fin (1 / 3)) (.fin 80) true).wellFormed = false := by decide +kernel

/-- Nor as a longitude. -/
theorem test_wellFormed_refuses_longitude :
    (Instr.encode (.fin 20) (.fin (241 / 3)) true).wellFormed = false := by decide +kernel

/-- The largest finite binary64 value is carried, and its double is not. -/
theorem test_wellFormed_range :
    (Instr.encode (.fin ((2 ^ 53 - 1) * 2 ^ 971)) .nonfinite true).wellFormed = true ∧
    (Instr.encode (.fin ((2 ^ 53 - 1) * 2 ^ 972)) .nonfinite true).wellFormed = false := by
  decide +kernel

/-! ### Decoding: the headers of 30_encoding R54, written out bit by bit -/

theorem test_decode_encode_hyph0 :
    decode .binary64 { header := 0b000, lat := 0x4034800000000000, lon := 0x4054600000000000,
                       codeIn := [] } = .ok (.encode (.fin (205 / 10)) (.fin (815 / 10)) false) := by
  decide +kernel

theorem test_decode_encode_hyph1 :
    decode .binary64 { header := 0b100, lat := 0x4043400000000000, lon := 0x4058E00000000000,
                       codeIn := [] } = .ok (.encode (.fin (77 / 2)) (.fin (199 / 2)) true) := by
  decide +kernel

theorem test_decode_decode :
    decode .binary64 { header := 0b101, lat := 0x7FF0000000000000, lon := 1, codeIn := delhi } =
      .ok (.decode delhi) := by decide +kernel

theorem test_decode_isvalid :
    decode .binary64 { header := 0b110, lat := 0, lon := 0, codeIn := [] } =
      .ok (.isvalid []) := by decide +kernel

theorem test_decode_reserved :
    decode .binary64 { header := 0b011, lat := 0, lon := 0, codeIn := [] } = .error .reservedOp ∧
    decode .binary64 { header := 0b111, lat := 0, lon := 0, codeIn := [] } = .error .reservedOp := by
  decide +kernel

/-- The rows of spec/opcode_table.json: `OP` alone, and `HYPH` set; a word that is no header. -/
theorem test_decodeTableWord :
    decodeTableWord 8 0 = some (.encode (.fin 0) (.fin 0) false) ∧
    decodeTableWord 8 4 = some (.encode (.fin 0) (.fin 0) true) ∧
    decodeTableWord 8 1 = some (.decode []) ∧ decodeTableWord 8 5 = some (.decode []) ∧
    decodeTableWord 8 2 = some (.isvalid []) ∧ decodeTableWord 8 3 = none ∧
    decodeTableWord 8 8 = none := by decide +kernel

/-- The bits of 95_test_vectors' binary64 table, both ways. -/
theorem test_binary64 :
    binary64Bits (.fin (5 / 2)) = 0x4004000000000000 ∧
    binary64Val 0x4004001200000000 = .fin (5 / 2 + 9 / 262144) ∧
    binary64Val 0x8000000000000000 = .fin 0 ∧ binary64Val 0xFFF0000000000000 = .nonfinite := by
  decide +kernel

/-- On a port of 128 bits the topmost bit reaches `val` (00_scope R9: the format is open). -/
theorem test_wide_port :
    coordVal (.platform 128) (2 ^ 127) = platformVal 128 0x80000000000000000000000000000000#128 :=
  rfl

/-- The reserved header is refused by the step, with the reason named (95_test_vectors P4). -/
theorem test_step_reserved :
    stepRefused (busyWith reservedCommand) = some .reservedOperation := by decide +kernel

/-- The step after `withFetchWord` runs the row's operation: ENCODE of latitude zero is below the
minimum, DECODE of the empty code is of the wrong length, ISVALID of it is false. -/
theorem test_withFetchWord :
    (afterSteps 1 (State.reset.withFetchWord 8 0)).bind response = some (.error 1 2) ∧
    (afterSteps 1 (State.reset.withFetchWord 8 1)).bind response = some (.error 2 0) ∧
    (afterSteps 1 (State.reset.withFetchWord 8 2)).bind response =
      some (.ok (.verdict false)) := by decide +kernel

/-! ### ENCODE -/

/-- 95_test_vectors V-E10. -/
theorem test_encode_delhi :
    (after (.encode (.fin (28622788 / 10 ^ 6)) (.fin (77213033 / 10 ^ 6)) true) State.reset).map
      (fun t => (t.work.codeOut, t.work.gidx, t.res.status)) =
    some (delhi, 0x52492CC3F9, 0) := by decide +kernel

/-- 95_test_vectors V-E3: the column clamp acts and the row clamp does not. -/
theorem test_encode_southEast :
    (after (.encode (.fin (5 / 2)) (.fin (199 / 2)) false) State.reset).map
      (fun t => (t.work.codeOut, t.work.gidx)) =
    some (List.replicate 10 0x54, 0xFFFFFFFFFF) := by decide +kernel

/-! ### DECODE -/

/-- 95_test_vectors V-D1. -/
theorem test_decode_delhi :
    (after (.decode delhi) State.reset).map
      (fun t => (t.res.latC, t.res.lonUdeg, t.res.lonStr, t.res.status)) =
    some (15006587 / 524288, 77213049,
      [0x37, 0x37, 0x2E, 0x32, 0x31, 0x33, 0x30, 0x34, 0x39], 0) := by decide +kernel

/-- 95_test_vectors V-X18: of two foreign characters the one of lower index is reported. -/
theorem test_decode_twoForeign :
    (after (.decode twoForeign) State.reset).map (fun t => (t.res.status, t.res.errinfo)) =
    some (3, 0x41) := by decide +kernel

/-! ### ISVALID -/

/-- 95_test_vectors V-I3. -/
theorem test_isvalid_plain :
    (after (.isvalid delhiPlain) State.reset).map (·.res.valid) = some true := by decide +kernel

/-- 95_test_vectors V-I10: ten characters, the last a space. -/
theorem test_isvalid_space :
    (after (.isvalid (delhiPlain.take 9 ++ [0x20])) State.reset).map
      (fun t => (t.res.valid, t.res.status)) = some (false, 0) := by decide +kernel

/-! ### Witnesses: states and steps -/

theorem witness_ResetLeavesIdleAndWaits :
    heldInReset.host.resetPin = true ∧ (busyWith validCommand).run = .busy ∧
    (State.reset.host.resetPin = false ∧ State.reset.run = .idle ∧
      State.reset.host.commands = []) := by decide

theorem witness_AcceptanceLatchesTheCommand :
    let s := presenting delhiCommand State.reset
    s.host.resetPin = false ∧ s.run = .idle ∧ s.host.commands = delhiCommand :: [] := by decide

theorem witness_StepPerformsDecodedOperation :
    (busyWith validCommand).host.resetPin = false ∧ (busyWith validCommand).run = .busy ∧
    decodeLatches (busyWith validCommand).latch = .ok (.isvalid delhiPlain) ∧
    decodeLatches (busyWith decodeCommand).latch = .ok (.decode delhi) ∧
    decodeLatches (busyWith (tableCommand 4)).latch =
      .ok (.encode (.fin 0) (.fin 0) true) := by decide +kernel

theorem witness_ResponseStaysUntilTaken :
    ((doneWith 2 0 false).host.resetPin = false ∧ (doneWith 2 0 false).run = .done ∧
      (doneWith 2 0 false).host.takes = false) ∧
    ((doneWith 2 0 true).host.resetPin = false ∧ (doneWith 2 0 true).run = .done ∧
      (doneWith 2 0 true).host.takes = true) := by decide

theorem witness_ResponseFieldsByOperation :
    State.reset.run ≠ .done ∧
    ((doneWith 1 3 true).run = .done ∧ (doneWith 1 3 true).res.status ≠ 0) ∧
    ((doneWith 0 0 true).run = .done ∧ (doneWith 0 0 true).res.status = 0 ∧
      (doneWith 0 0 true).latch.op = 0) ∧
    ((doneWith 1 0 true).run = .done ∧ (doneWith 1 0 true).res.status = 0 ∧
      (doneWith 1 0 true).latch.op = 1) ∧
    ((doneWith 2 0 true).run = .done ∧ (doneWith 2 0 true).res.status = 0 ∧
      (doneWith 2 0 true).latch.op = 2) := by decide

theorem witness_ReservedOperationRefused :
    (busyWith reservedCommand).host.resetPin = false ∧ (busyWith reservedCommand).run = .busy ∧
    (busyWith reservedCommand).latch.op = 3 := by decide

/-! ### Witnesses: encodings -/

theorem witness_HeaderPatternsName :
    (tableCommand 0).header = 0b000 ∧ (tableCommand 4).header = 0b100 ∧
    (tableCommand 1).header = 0b001 ∧ (tableCommand 5).header = 0b101 ∧
    (tableCommand 2).header = 0b010 ∧ (tableCommand 6).header = 0b110 ∧
    (tableCommand 3).header = 0b011 ∧ (tableCommand 7).header = 0b111 := by decide

theorem witness_PortBitsValue :
    ((0x7FF0000000000000 : BitVec 64).extractLsb' 52 11).toNat = 2047 ∧
    ((0x000FFFFFFFFFFFFF : BitVec 64).extractLsb' 52 11).toNat = 0 ∧
    ((0x0010000000000000 : BitVec 64).extractLsb' 52 11).toNat = 1 ∧
    ((0xFFEFFFFFFFFFFFFF : BitVec 64).extractLsb' 52 11).toNat = 2046 := by decide

theorem witness_EncodedOperationDecodesBack :
    (Instr.encode (.fin (77 / 2)) .nonfinite false).wellFormed = true ∧
    (Instr.encode (.fin (-(1 / 2 ^ 1074))) (.fin 0) true).wellFormed = true ∧
    (Instr.decode delhi).wellFormed = true ∧ (Instr.isvalid []).wellFormed = true := by
  decide +kernel

theorem witness_DecodedOperationIsWellFormed :
    decode .binary64 decodeCommand = .ok (.decode delhi) ∧
    decode .binary64 (tableCommand 0) = .ok (.encode (.fin 0) (.fin 0) false) := by
  decide +kernel

/-- A unit waits whether its host takes responses or not. -/
theorem units_wait :
    Waiting State.reset ∧ Waiting { doneWith 2 0 false with run := .idle } :=
  ⟨⟨rfl, rfl⟩, ⟨rfl, rfl⟩⟩

/-- Both alternatives: an ENCODE with another code operand; a DECODE with other coordinates and the
other `HYPH`. -/
theorem witness_UnusedOperandsIgnored :
    Waiting State.reset ∧
    ((let c := delhiCommand
     let d := { delhiCommand with codeIn := delhi }
     c ≠ d ∧ c.header.extractLsb' 0 2 = 0 ∧ c.header = d.header ∧ c.lat = d.lat ∧
       c.lon = d.lon) ∧
    (let c := decodeCommand
     let d := { decodeCommand with header := 0b101, lat := 0x7FF8000000000000 }
     c ≠ d ∧ c.header.extractLsb' 0 2 = d.header.extractLsb' 0 2 ∧
       c.header.extractLsb' 0 2 = 1 ∧ c.codeIn = d.codeIn) ∧
    validCommand.header.extractLsb' 0 2 = 2) := ⟨units_wait.1, by decide⟩

/-! ### Witnesses: operand forms -/

theorem witness_FloorAndClamp :
    ((4 : ℤ) : ℚ) ≤ 9 / 2 ∧ ((0 : ℤ) ≤ 3 ∧ (-1 : ℤ) < 0 ∧ (4 : ℤ) > 3 ∧ (0 : ℤ) ≤ 0 ∧
      (3 : ℤ) ≤ 3) := by norm_num

/-- A tie: `0.5` micro-degrees are as near to 0 as to 1. -/
theorem witness_RoundSixIsNearest :
    (0 : ℚ) ≤ 1 / 2000000 ∧
    |(round6 (1 / 2000000) : ℚ) - 1 / 2000000 * 10 ^ 6| =
      |((0 : ℤ) : ℚ) - 1 / 2000000 * 10 ^ 6| := by
  have h : round6 (1 / 2000000) = 1 := by decide +kernel
  rw [h]; norm_num

theorem witness_StripMakesTheCanonicalForm : (0x2D : Ch) = SEP ∧ (0x20 : Ch) ≠ SEP := by decide

theorem default_admissible : gridAdmissible gDefault = true := by decide +kernel

theorem reset_admissible : gridAdmissible State.reset.cfg.grid = true := default_admissible

theorem witness_InverseTableOfGrid :
    gridAdmissible gDefault = true ∧ ∀ r c : Digit, gridAt gDefault r c ≠ 0x42 := by
  decide +kernel

theorem witness_RenderedDigits : 0 < 100000000 ∧ 99999999 < 100000000 := by decide

/-! ### Witnesses: ENCODE -/

/-- The four corners of the Bounding Region are accepted. -/
theorem corners_accepted :
    Accepted (5 / 2) (127 / 2) ∧ Accepted (77 / 2) (199 / 2) ∧ Accepted (5 / 2) (199 / 2) ∧
    Accepted (77 / 2) (127 / 2) := by
  unfold Accepted; norm_num

theorem witness_EncodeRangeChecks :
    (24999999 / 10 ^ 7 : ℚ) < 5 / 2 ∧ (77 / 2 : ℚ) < 385000001 / 10 ^ 7 ∧
    ((5 / 2 : ℚ) ≤ 5 / 2 ∧ (5 / 2 : ℚ) ≤ 77 / 2 ∧ (634999999 / 10 ^ 7 : ℚ) < 127 / 2) ∧
    ((5 / 2 : ℚ) ≤ 77 / 2 ∧ (77 / 2 : ℚ) ≤ 77 / 2 ∧ (199 / 2 : ℚ) < 995000001 / 10 ^ 7) ∧
    ((5 / 2 : ℚ) ≤ 77 / 2 ∧ (77 / 2 : ℚ) ≤ 77 / 2 ∧ (127 / 2 : ℚ) ≤ 199 / 2 ∧
      (199 / 2 : ℚ) ≤ 199 / 2) := by norm_num

theorem witness_EncodeCompletes :
    Accepted (5 / 2) (127 / 2) ∧ State.reset.latch.op = 0 := ⟨corners_accepted.1, rfl⟩

theorem witness_CodeSpellsTheGridIndex : Accepted (5 / 2) (199 / 2) := corners_accepted.2.2.1

/-- Two states with the same parameters; a command that ends with `OK`; two accepted coordinates on
one parallel, two on one meridian; the first and the last level. -/
theorem witness_EncodeIsPure :
    State.reset.cfg = heldInReset.cfg ∧
    (after (.encode (.fin (5 / 2)) (.fin (127 / 2)) true) State.reset).map (·.res.status) = some 0 ∧
    (Accepted (5 / 2) (127 / 2) ∧ Accepted (5 / 2) (199 / 2)) ∧
    (Accepted (5 / 2) (127 / 2) ∧ Accepted (77 / 2) (127 / 2)) ∧ 1 ≤ 1 ∧ 10 ≤ 10 :=
  ⟨rfl, by decide +kernel, ⟨corners_accepted.1, corners_accepted.2.2.1⟩,
    ⟨corners_accepted.1, corners_accepted.2.2.2⟩, by decide, by decide⟩

/-- The four edges; and 20.5, 81.5, which stands on the lines `n = 2` of level 1. -/
theorem witness_EdgeAndLineDigits :
    (Accepted (77 / 2) (199 / 2) ∧ Accepted (5 / 2) (127 / 2) ∧ Accepted (205 / 10) (815 / 10)) ∧
    (1 ≤ 1 ∧ 1 < 2 ∧ (2 : ℤ) ≤ 3 ∧
      (205 / 10 : ℚ) = (encodeWindow (205 / 10) (815 / 10) true (1 - 1) State.reset).minLat +
        (2 : ℤ) * latDiv (encodeWindow (205 / 10) (815 / 10) true (1 - 1) State.reset) ∧
      (815 / 10 : ℚ) = (encodeWindow (205 / 10) (815 / 10) true (1 - 1) State.reset).minLon +
        (2 : ℤ) * lonDiv (encodeWindow (205 / 10) (815 / 10) true (1 - 1) State.reset)) :=
  ⟨⟨corners_accepted.2.1, corners_accepted.1, by unfold Accepted; norm_num⟩,
    by decide, by decide, by decide, by decide +kernel, by decide +kernel⟩

theorem witness_WindowHoldsTheCoordinate :
    Accepted (77 / 2) (199 / 2) ∧ 0 ≤ 10 ∧ 10 ≤ 10 :=
  ⟨corners_accepted.2.1, by decide, by decide⟩

/-- The levels of DECODE over a whole code, and over none of it. -/
theorem levels_of_delhi :
    delhiPlain.length ≤ 10 ∧ (decodeLevels delhiPlain (startDecode State.reset)).toBool = true ∧
    (decodeLevels [] (startDecode State.reset)).toBool = true := by decide +kernel

theorem witness_WindowSideAtEachLevel :
    10 ≤ 10 ∧ delhiPlain.length ≤ 10 ∧
    ∃ t, decodeLevels delhiPlain (startDecode State.reset) = .ok t := by
  refine ⟨by decide, levels_of_delhi.1, ?_⟩
  have h := levels_of_delhi.2.1
  cases hd : decodeLevels delhiPlain (startDecode State.reset) with
  | ok t => exact ⟨t, rfl⟩
  | error p => rw [hd] at h; cases h

/-- A valid code, in its rendered form with separators. -/
theorem delhi_valid : ValidCode State.reset.cfg.grid delhi := by
  unfold ValidCode; decide +kernel

theorem witness_WindowEdgesOnTheLattice :
    10 ≤ 10 ∧ (∃ t, decodeLevels delhiPlain (startDecode State.reset) = .ok t) ∧
    ValidCode State.reset.cfg.grid delhi :=
  ⟨by decide, witness_WindowSideAtEachLevel.2.2, delhi_valid⟩

theorem witness_ClampOnlyOnTheOuterEdge : Accepted (77 / 2) (199 / 2) ∧ 10 ≤ 10 :=
  ⟨corners_accepted.2.1, by decide⟩

theorem witness_CellOwnsItsSouthWestEdges :
    Accepted (77 / 2) (199 / 2) ∧ 0 < 2 ^ 20 ∧ 2 ^ 20 - 1 < 2 ^ 20 :=
  ⟨corners_accepted.2.1, by decide, by decide⟩

theorem witness_EncodeClosedForm : Accepted (77 / 2) (127 / 2) ∧ 1 ≤ 10 ∧ 10 ≤ 10 :=
  ⟨corners_accepted.2.2.2, by decide, by decide⟩

theorem witness_BoundaryClampExample : 1 ≤ 1 ∧ 1 ≤ 10 ∧ 10 ≤ 10 := by decide

theorem witness_WorkedExample : gridAdmissible State.reset.cfg.grid = true := reset_admissible

/-! ### Witnesses: DECODE -/

/-- Nine symbols, and eleven (95_test_vectors V-X11, V-X12). -/
theorem witness_WrongLengthRaisesFormatError :
    (strip (delhi.take 11)).length = 9 ∧ (strip (delhi ++ [0x34])).length = 11 := by decide

/-- The first foreign character of `"39J4ALLBT4"` stands at index 4. -/
theorem witness_FirstForeignCharacterReported :
    strip twoForeign = [0x33, 0x39, 0x4A, 0x34] ++ 0x41 :: [0x4C, 0x4C, 0x42, 0x54, 0x34] ∧
    (strip twoForeign).length = 10 ∧
    (∀ c ∈ ([0x33, 0x39, 0x4A, 0x34] : List Ch), inv State.reset.cfg.grid c ≠ none) ∧
    inv State.reset.cfg.grid 0x41 = none := by decide +kernel

theorem witness_DecodeRendersTheCentroid :
    ValidCode State.reset.cfg.grid delhi ∧ (busyWith decodeCommand).latch.op = 1 :=
  ⟨delhi_valid, by decide⟩

theorem witness_DecodeIsPure :
    State.reset.cfg = heldInReset.cfg ∧ strip delhi = strip delhiPlain ∧
    (after (.decode delhi) State.reset).map (·.res.status) = some 0 := by
  refine ⟨rfl, by decide, by decide +kernel⟩

/-- One level at 20.5, 81.5: the digit is row 1, column 2, whose symbol in the default grid is the
character 2. -/
theorem witness_NarrowingsAgree :
    BR.maxLat = BR.minLat + 4 * latDiv BR ∧ 1 ≤ 10 ∧ ([0x32] : List Ch).length = 1 ∧
    ((([0x32] : List Ch)[0]?).bind (inv State.reset.cfg.grid) =
      some (rowOf (encodeWindow (205 / 10) (815 / 10) true 0 State.reset) (205 / 10),
        colOf (encodeWindow (205 / 10) (815 / 10) true 0 State.reset) (815 / 10))) ∧
    (decodeLevels [0x32] (startDecode State.reset)).toBool = true := by decide +kernel

/-- The symbols of the running example spell the digits of its table (41_decode, worked example). -/
theorem witness_DecodeClosedForm :
    let row : ℕ → Digit := fun k => [0, 1, 0, 1, 2, 0, 3, 3, 0, 3, 2].getD k 0
    let col : ℕ → Digit := fun k => [0, 1, 2, 0, 1, 2, 0, 0, 3, 3, 1].getD k 0
    (strip delhi).length = 10 ∧
    ∀ k ∈ List.range' 1 10,
      ((strip delhi)[k - 1]?).bind (inv State.reset.cfg.grid) = some (row k, col k) := by
  decide +kernel

theorem witness_NoRoundingTies : ValidCode State.reset.cfg.grid delhi := delhi_valid

theorem witness_DecodeResultRange :
    ValidCode State.reset.cfg.grid delhi ∧ gridAdmissible State.reset.cfg.grid = true :=
  ⟨delhi_valid, reset_admissible⟩

/-! ### Witnesses: round trips -/

theorem witness_CoordinateRoundTrip :
    gridAdmissible State.reset.cfg.grid = true ∧ heldInReset.cfg = State.reset.cfg ∧
    Accepted (77 / 2) (199 / 2) := ⟨reset_admissible, rfl, corners_accepted.2.1⟩

/-- `"LLLLLLLLLL"`, another valid code than the running example. -/
theorem witness_CodeRoundTrip :
    gridAdmissible State.reset.cfg.grid = true ∧ heldInReset.cfg = State.reset.cfg ∧
    ValidCode State.reset.cfg.grid delhi ∧
    ValidCode State.reset.cfg.grid (List.replicate 10 0x4C) ∧
    strip delhi ≠ strip (List.replicate 10 0x4C) :=
  ⟨reset_admissible, rfl, delhi_valid, by unfold ValidCode; decide +kernel, by decide⟩

theorem witness_CentreOfTheRegionExample :
    gridAdmissible State.reset.cfg.grid = true ∧ State.reset.cfg.grid = gDefault :=
  ⟨reset_admissible, rfl⟩

/-! ### Witnesses: ISVALID and the whole machine -/

theorem witness_IsValidAgreesWithDecode : State.reset.cfg = heldInReset.cfg := rfl

theorem witness_AlphabetRejectionExample : gridAdmissible State.reset.cfg.grid = true :=
  reset_admissible

theorem witness_SeparatorsDoNotMatter :
    strip delhi = strip delhiPlain ∧ gridAdmissible State.reset.cfg.grid = true ∧
    ValidCode State.reset.cfg.grid delhi := ⟨by decide, reset_admissible, delhi_valid⟩

theorem witness_ResponseDependsOnCommandAlone :
    Waiting State.reset ∧ delhiCommand.header.extractLsb' 0 2 ≠ 3 := ⟨units_wait.1, by decide⟩

/-- Three commands, one of each operation, wait for a unit just reset. -/
def threeWaiting : State :=
  { State.reset with
    host := { State.reset.host with commands := [delhiCommand, decodeCommand, validCommand] } }

theorem witness_CommandsAnsweredInOrder :
    Ready threeWaiting ∧ threeWaiting.host.commands.length = 3 ∧
    ∀ c ∈ threeWaiting.host.commands, c.header.extractLsb' 0 2 ≠ 3 :=
  ⟨⟨⟨rfl, rfl⟩, rfl⟩, rfl, by decide⟩

theorem witness_TablesNeverChange :
    ∃ t, Host.Core.run core 9 threeWaiting = .next t :=
  run_of_afterSteps (by decide +kernel)

theorem witness_EndingsByOperation : gridAdmissible State.reset.cfg.grid = true := reset_admissible

theorem witness_EveryCommandEnds :
    let s := busyWith decodeCommand
    s.host.resetPin = false ∧ s.run = .busy ∧ s.latch.op ≠ 3 ∧ s.latch.op ≠ 2 ∧
    (afterSteps 1 s).map (·.res.status) = some 0 := by decide +kernel

theorem witness_UnreservedRunsNeverStop :
    (∀ c ∈ (busyWith decodeCommand).host.commands, c.header.extractLsb' 0 2 ≠ 3) ∧
    ((busyWith decodeCommand).run = .busy → (busyWith decodeCommand).latch.op ≠ 3) := by decide

/-- A legal state with a command in flight, and the step it takes. -/
theorem witness_StepKeepsLegalStates :
    Legal (busyWith validCommand) ∧ ∃ t, step (busyWith validCommand) = .next t := by
  refine ⟨⟨reset_admissible, by decide, by decide, by decide, (fun h => nomatch h), ?_⟩, ⟨_, rfl⟩⟩
  intro r h
  cases h

end Sys2Proof.Tests
end

section
/-! The values a binary64 port carries (30_encoding R58). -/

namespace Sys2Proof

/-- A rational that is `n` units of `1 / k` is so in its own numerator and denominator. -/
theorem num_natAbs_mul_of_abs_mul {q : ℚ} {k n : ℕ} (h : |q| * k = n) :
    q.num.natAbs * k = n * q.den := by
  have hden : (q.den : ℚ) ≠ 0 := by exact_mod_cast q.den_ne_zero
  have hq : |q| * q.den = q.num.natAbs := by
    rw [Rat.abs_def, Rat.divInt_eq_div]
    exact div_mul_cancel₀ _ hden
  have : (q.num.natAbs : ℚ) * k = n * q.den := by rw [← hq, ← h]; ring
  exact_mod_cast this

/-- A whole number of units of `2^-1074` is exact when its significant bits and its exponent fit. -/
theorem binary64Exact_of_units {q : ℚ} {n : ℕ} (h : |q| * (2 ^ 1074 : ℕ) = n)
    (hn : n < 2 ^ 52 ∨ n % 2 ^ (n.log2 - 52) = 0 ∧ n.log2 - 51 < 2047) :
    binary64Exact q = true := by
  have hnum := num_natAbs_mul_of_abs_mul h
  have hunits : binary64Units q = n := by
    rw [binary64Units, hnum, Nat.mul_div_cancel _ q.den_pos]
  simp only [binary64Exact, hunits, hnum]
  simpa using hn

/-- A significand at biased exponent `e + 1` counts units of `2^-1074`. -/
theorem binary64Magnitude_succ_mul (m e : ℕ) :
    binary64Magnitude m (e + 1) * (2 ^ 1074 : ℕ) = (m * 2 ^ e : ℕ) := by
  have hpos : (2 ^ 1074 : ℕ) ≠ 0 := pow_ne_zero 1074 two_ne_zero
  rw [binary64Magnitude, Rat.mkRat_eq_div, show 1075 = 1074 + 1 from rfl, pow_succ, pow_succ]
  generalize 2 ^ 1074 = k at hpos
  push_cast
  field_simp

theorem binary64Magnitude_nonneg (m e : ℕ) : 0 ≤ binary64Magnitude m e :=
  Rat.mkRat_nonneg (Int.natCast_nonneg _) _

/-- Only the magnitude decides whether binary64 carries a value. -/
theorem binary64Exact_signed {a : ℚ} {n : ℕ} (ha : 0 ≤ a) (s : Bool)
    (h : a * (2 ^ 1074 : ℕ) = n)
    (hn : n < 2 ^ 52 ∨ n % 2 ^ (n.log2 - 52) = 0 ∧ n.log2 - 51 < 2047) :
    binary64Exact (if s then -a else a) = true := by
  have habs : |if s then -a else a| = a := by cases s <;> simpa using ha
  exact binary64Exact_of_units (by rw [habs, h]) hn

/-- The bit length of a normal significand at biased exponent `e + 1`. -/
theorem log2_significand {f e : ℕ} (hf : f < 2 ^ 52) :
    ((2 ^ 52 + f) * 2 ^ e).log2 = 52 + e := by
  have hlow : 2 ^ (52 + e) ≤ (2 ^ 52 + f) * 2 ^ e := by
    rw [pow_add]; exact Nat.mul_le_mul_right _ (Nat.le_add_right _ _)
  have hhigh : (2 ^ 52 + f) * 2 ^ e < 2 ^ (52 + e + 1) := by
    rw [show 52 + e + 1 = 53 + e by ring, pow_add]
    exact Nat.mul_lt_mul_of_pos_right (by omega) (Nat.two_pow_pos e)
  have hne : (2 ^ 52 + f) * 2 ^ e ≠ 0 := by positivity
  rw [Nat.log2_eq_iff hne]
  exact ⟨hlow, hhigh⟩

/-- What R58 reads from a subnormal significand is spelled by binary64, with either sign. -/
theorem binary64Exact_subnormal {f : ℕ} (hf : f < 2 ^ 52) (s : Bool) :
    binary64Exact (if s then -binary64Magnitude f 1 else binary64Magnitude f 1) = true :=
  binary64Exact_signed (binary64Magnitude_nonneg _ _) s (binary64Magnitude_succ_mul f 0)
    (.inl (by rwa [pow_zero, mul_one]))

/-- What R58 reads from a normal significand is spelled by binary64, with either sign. -/
theorem binary64Exact_normal {f e : ℕ} (hf : f < 2 ^ 52) (he0 : e ≠ 0) (he : e < 2047) (s : Bool) :
    binary64Exact (if s then -binary64Magnitude (2 ^ 52 + f) e
      else binary64Magnitude (2 ^ 52 + f) e) = true := by
  obtain ⟨k, rfl⟩ := Nat.exists_eq_succ_of_ne_zero he0
  refine binary64Exact_signed (binary64Magnitude_nonneg _ _) s
    (binary64Magnitude_succ_mul (2 ^ 52 + f) k) (.inr ?_)
  rw [log2_significand hf, Nat.add_sub_cancel_left]
  exact ⟨Nat.mul_mod_left _ _, by omega⟩

/-- Whatever bits stand on a binary64 port, their value is one the port carries. -/
theorem binary64Val_representable (bits : BitVec 64) : (binary64Val bits).representable = true := by
  have hf := (bits.extractLsb' 0 52).isLt
  have he := (bits.extractLsb' 52 11).isLt
  by_cases hmax : (bits.extractLsb' 52 11).toNat = 2047
  · rw [binary64Val, if_pos hmax]; rfl
  · rw [binary64Val, if_neg hmax]
    by_cases hzero : (bits.extractLsb' 52 11).toNat = 0
    · simp only [if_pos hzero]
      exact binary64Exact_subnormal hf _
    · simp only [if_neg hzero]
      exact binary64Exact_normal hf hzero (by omega) _

/-- Which operation accepted fields name (30_encoding R54). -/
theorem decodeFields_ok_cases {op : BitVec 2} {hyph : Bool} {lat lon : CoordNum}
    {codeIn : List Ch} {i : Instr} (h : decodeFields op hyph lat lon codeIn = .ok i) :
    (op = opEncode ∧ i = .encode lat lon hyph) ∨ (op = opDecode ∧ i = .decode codeIn) ∨
      (op = opIsValid ∧ i = .isvalid codeIn) := by
  unfold decodeFields at h
  split_ifs at h with h0 h1 h2
  · cases h; exact .inl ⟨h0, rfl⟩
  · cases h; exact .inr (.inl ⟨h1, rfl⟩)
  · cases h; exact .inr (.inr ⟨h2, rfl⟩)

/-- Settles O11: the value of any 64 bits is one that binary64 spells. -/
theorem decodedOperationIsWellFormed : Obligations.DecodedOperationIsWellFormed := by
  unfold Obligations.DecodedOperationIsWellFormed
  intro c i h
  have hval (bits : PortBits) : (coordVal .binary64 bits).representable = true :=
    binary64Val_representable _
  rcases decodeFields_ok_cases h with ⟨-, rfl⟩ | ⟨-, rfl⟩ | ⟨-, rfl⟩
  · simp [Instr.wellFormed, hval]
  · rfl
  · rfl

end Sys2Proof
end

section
/-! The integer primitives: `floor`, `clamp`, `round6` (00_scope R2, R3, R5). -/

namespace Sys2Proof.Machine

open Sys2Proof

theorem clamp_of_lt {v lo : ℤ} (hi : ℤ) (h : v < lo) : clamp v lo hi = lo := if_pos h

theorem clamp_of_gt {v lo hi : ℤ} (hle : lo ≤ hi) (h : hi < v) : clamp v lo hi = hi := by
  rw [clamp, if_neg (by omega), if_pos h]

theorem clamp_of_mem {v lo hi : ℤ} (hlo : lo ≤ v) (hhi : v ≤ hi) : clamp v lo hi = v := by
  rw [clamp, if_neg (by omega), if_neg (by omega)]

/-- Settles O13: `floor` is the integer floor, and each clause is one branch of `clamp`. -/
theorem floorAndClamp : Obligations.FloorAndClamp := by
  unfold Obligations.FloorAndClamp
  refine ⟨fun q => ?_, fun v lo hi hle => ⟨clamp_of_lt hi, clamp_of_gt hle, clamp_of_mem⟩⟩
  rw [floorOf_eq]
  exact ⟨Int.floor_le q, fun n hn => Int.le_floor.mpr hn⟩

/-- `round6` is the library's rounding, which also takes the larger of two equally near. -/
theorem round6_eq_round {q : ℚ} (h : 0 ≤ q) : (round6 q : ℤ) = round (q * 10 ^ 6) := by
  rw [round_eq, round6, floorOf_eq]
  exact Int.toNat_of_nonneg (Int.floor_nonneg.mpr (by positivity))

/-- An integer as near to `x` as `round x` is not above it. -/
theorem le_round_of_abs_eq {x : ℚ} {m : ℤ} (h : |x - round x| = |x - m|) : m ≤ round x := by
  by_contra! hlt
  have hnear : |x - round x| ≤ 1 / 2 := abs_sub_round x
  have hbelow : x + 1 / 2 < round x + 1 := by rw [round_eq]; exact Int.lt_floor_add_one _
  have hm : (round x : ℚ) + 1 ≤ m := by exact_mod_cast hlt
  have hfar : (m : ℚ) - x ≤ |x - m| := by rw [abs_sub_comm]; exact le_abs_self _
  linarith

/-- Settles O14: `round` is nearest, and lies within half a unit above a tie. -/
theorem roundSixIsNearest : Obligations.RoundSixIsNearest := by
  unfold Obligations.RoundSixIsNearest
  intro q hq m
  have hround : (round6 q : ℚ) = round (q * 10 ^ 6) := by exact_mod_cast round6_eq_round hq
  rw [hround, round6_eq_round hq, abs_sub_comm, abs_sub_comm (m : ℚ)]
  exact ⟨round_le _ m, le_round_of_abs_eq⟩

end Sys2Proof.Machine
end

section
/-! The steps of a run, the response an operation leaves, and the queue worked off in order. -/

namespace Sys2Proof.Machine

open Sys2Proof

/-! ### The steps of the unit, one rule per transition of `RUN` (10_state R22) -/

theorem step_of_idle_cons {s : State} {c : Command} {rest : List Command}
    (hpin : s.host.resetPin = false) (hrun : s.run = .idle) (hc : s.host.commands = c :: rest) :
    step s = .next (accept c { s with host := { s.host with commands := rest } }) := by
  simp [step, hpin, hrun, hc]

theorem step_of_busy {s : State} {i : Instr} (hpin : s.host.resetPin = false)
    (hrun : s.run = .busy) (hi : decodeLatches s.latch = .ok i) : step s = exec i s := by
  simp [step, hpin, hrun, hi]

theorem step_of_done_takes {s : State} (hpin : s.host.resetPin = false) (hrun : s.run = .done)
    (htakes : s.host.takes = true) : step s = .next (takeResponse s) := by
  simp [step, hpin, hrun, htakes]

/-- Settles O3: it is the `BUSY` branch of the step. -/
theorem stepPerformsDecodedOperation : Obligations.StepPerformsDecodedOperation := by
  unfold Obligations.StepPerformsDecodedOperation
  exact fun s i => step_of_busy

/-! ### Runs -/

theorem run_zero (s : State) : Host.Core.run core 0 s = .next s := rfl

theorem run_succ_of_step {s t : State} (k : ℕ) (h : step s = .next t) :
    Host.Core.run core (k + 1) s = Host.Core.run core k t := by
  have hcore : core.step s = .next t := h
  simp only [Host.Core.run, hcore]

/-- A run goes on from where its first steps end. -/
theorem run_add {m : ℕ} (n : ℕ) {s t : State} (h : Host.Core.run core m s = .next t) :
    Host.Core.run core (m + n) s = Host.Core.run core n t := by
  induction m generalizing s with
  | zero => cases h; rw [Nat.zero_add]
  | succ m ih =>
    rw [Nat.succ_add]
    simp only [Host.Core.run] at h ⊢
    cases hs : core.step s with
    | next u => simp only [hs] at h ⊢; exact ih h
    | fault r => simp [hs] at h
    | refused r => simp [hs] at h

/-! ### The response an operation leaves -/

theorem decodeLatches_of_op_ne {l : Latches} (h : l.op ≠ 3) : ∃ i, decodeLatches l = .ok i := by
  cases hd : decodeLatches l with
  | ok i => exact ⟨i, rfl⟩
  | error e => cases e; exact absurd ((decodeLatches_error_iff l).mp hd) h

@[simp] theorem resultFields_respondOk (s : State) :
    resultFields (respondOk s) = resultFields s := rfl

@[simp] theorem response_respondOk (s : State) :
    response (respondOk s) = (resultFields s).map .ok := rfl

@[simp] theorem response_raiseError (e : ErrorKind) (s : State) :
    response (raiseError e s) = some (.error e.status e.info) := by
  cases e <;> rfl

theorem resultFields_of_encode {s : State} (h : s.latch.op = opEncode) :
    resultFields s = some (.encoded s.work.codeOut s.work.gidx) := if_pos h

theorem resultFields_of_decode {s : State} (h : s.latch.op = opDecode) :
    resultFields s = some (.decoded s.res.latC s.res.lonC s.res.latStr s.res.lonStr
      s.res.latUdeg s.res.lonUdeg) := by
  simp [resultFields, h, opEncode, opDecode]

theorem resultFields_of_isValid {s : State} (h : s.latch.op = opIsValid) :
    resultFields s = some (.verdict s.res.valid) := by
  simp [resultFields, h, opEncode, opDecode, opIsValid]

/-- A unit that has ended an unreserved operation has a response. -/
theorem response_isSome {s : State} (hrun : s.run = .done) (hop : s.latch.op ≠ 3) :
    (response s).isSome = true := by
  have hfields : (resultFields s).isSome = true := by
    obtain ⟨i, hi⟩ := decodeLatches_of_op_ne hop
    rcases decodeFields_ok_cases hi with ⟨h, -⟩ | ⟨h, -⟩ | ⟨h, -⟩
    · rw [resultFields_of_encode h, Option.isSome_some]
    · rw [resultFields_of_decode h, Option.isSome_some]
    · rw [resultFields_of_isValid h, Option.isSome_some]
  simp only [response, hrun]
  split
  · rwa [Option.isSome_map]
  · rfl

/-! ### The response depends on the operation and the parameters alone -/

/-- Two units whose ENCODE stands at the same point: the same parameters, and the same in every
register that ENCODE reads or writes. -/
structure SameEncode (s s' : State) : Prop where
  cfg : s.cfg = s'.cfg
  window : s.work.window = s'.work.window
  level : s.work.level = s'.work.level
  codeOut : s.work.codeOut = s'.work.codeOut
  gidx : s.work.gidx = s'.work.gidx

theorem sameEncode_startEncode {s s' : State} (h : s.cfg = s'.cfg) :
    SameEncode (startEncode s) (startEncode s') := ⟨h, rfl, rfl, rfl, rfl⟩

theorem SameEncode.encodeLevel {s s' : State} (h : SameEncode s s') (lat lon : ℚ) (hyph : Bool) :
    SameEncode (encodeLevel lat lon hyph s) (encodeLevel lat lon hyph s') := by
  obtain ⟨hcfg, hwindow, hlevel, hcode, hgidx⟩ := h
  constructor <;> simp [hcfg, hwindow, hlevel, hcode, hgidx]

theorem SameEncode.encodeLevels {s s' : State} (h : SameEncode s s') (lat lon : ℚ) (hyph : Bool)
    (n : ℕ) : SameEncode (encodeLevels lat lon hyph n s) (encodeLevels lat lon hyph n s') := by
  induction n generalizing s s' with
  | zero => exact h
  | succ n ih => exact ih (h.encodeLevel lat lon hyph)

@[simp] theorem encodeLevels_latch (lat lon : ℚ) (hyph : Bool) (n : ℕ) (s : State) :
    (encodeLevels lat lon hyph n s).latch = s.latch := by
  rw [encodeLevels_frame]

theorem execEncode_response_congr {s s' t t' : State} {lat lon : CoordNum} {hyph : Bool}
    (hcfg : s.cfg = s'.cfg) (hlatch : s.latch = s'.latch) (hop : s.latch.op = opEncode)
    (h : execEncode lat lon hyph s = .next t) (h' : execEncode lat lon hyph s' = .next t') :
    response t = response t' := by
  cases hc : checkCoordinates lat lon with
  | error b =>
    simp only [execEncode, hc, Host.Outcome.next.injEq] at h h'
    subst h h'
    simp
  | ok p =>
    obtain ⟨a, b⟩ := p
    simp only [execEncode, hc, Host.Outcome.next.injEq] at h h'
    subst h h'
    have hsame := (sameEncode_startEncode hcfg).encodeLevels a b hyph LEVELS
    rw [response_respondOk, response_respondOk, resultFields_of_encode (by simpa using hop),
      resultFields_of_encode (by simpa [← hlatch] using hop), hsame.codeOut, hsame.gidx]

/-- The levels of DECODE end alike, with the same foreign character or at the same window, from
states with the same parameters and the same window. -/
theorem decodeLevels_congr (symbols : List Ch) {s s' : State} (hcfg : s.cfg = s'.cfg)
    (hwindow : s.work.window = s'.work.window) :
    (∃ ch t t', decodeLevels symbols s = .error (ch, t) ∧
      decodeLevels symbols s' = .error (ch, t')) ∨
    (∃ t t', decodeLevels symbols s = .ok t ∧ decodeLevels symbols s' = .ok t' ∧
      t.work.window = t'.work.window) := by
  induction symbols generalizing s s' with
  | nil => exact .inr ⟨s, s', rfl, rfl, hwindow⟩
  | cons ch rest ih =>
    unfold decodeLevels
    rw [← hcfg]
    cases inv s.cfg.grid ch with
    | none => exact .inl ⟨ch, s, s', rfl, rfl⟩
    | some cell => exact ih hcfg (by simp [hwindow])

theorem decodeLevels_ok_latch {symbols : List Ch} {s t : State}
    (h : decodeLevels symbols s = .ok t) : t.latch = s.latch := by
  have hframe := decodeLevels_frame symbols s
  simp only [h] at hframe
  rw [hframe]

theorem decodeSymbols_response_congr {s s' : State} (hcfg : s.cfg = s'.cfg)
    (hlatch : s.latch = s'.latch) (hop : s.latch.op = opDecode)
    (hcanon : s.work.canon = s'.work.canon) :
    response (decodeSymbols s) = response (decodeSymbols s') := by
  unfold decodeSymbols
  rw [← hcanon]
  rcases decodeLevels_congr s.work.canon (s := startDecode s) (s' := startDecode s') hcfg rfl with
    ⟨ch, t, t', h, h'⟩ | ⟨t, t', h, h', hwindow⟩
  · simp [h, h']
  · have ht : t.latch = s.latch := (decodeLevels_ok_latch h).trans (startDecode_latch s)
    have ht' : t'.latch = s.latch :=
      ((decodeLevels_ok_latch h').trans (startDecode_latch s')).trans hlatch.symm
    simp only [h, h', response_respondOk]
    rw [resultFields_of_decode (by simpa [ht] using hop),
      resultFields_of_decode (by simpa [ht'] using hop)]
    simp [writeCentroid, hwindow]

theorem execDecode_of_length {code : List Ch} {s : State} (h : (strip code).length = CODE_SYMS) :
    execDecode code s = .next (decodeSymbols (writeCanon code s)) := if_neg (not_not.mpr h)

theorem execDecode_of_length_ne {code : List Ch} {s : State} (h : (strip code).length ≠ CODE_SYMS) :
    execDecode code s = .next (raiseError .format (writeCanon code s)) := if_pos h

theorem execDecode_response_congr {s s' t t' : State} {code : List Ch}
    (hcfg : s.cfg = s'.cfg) (hlatch : s.latch = s'.latch) (hop : s.latch.op = opDecode)
    (h : execDecode code s = .next t) (h' : execDecode code s' = .next t') :
    response t = response t' := by
  by_cases hlen : (strip code).length = CODE_SYMS
  · rw [execDecode_of_length hlen] at h h'
    cases h; cases h'
    exact decodeSymbols_response_congr hcfg hlatch hop rfl
  · rw [execDecode_of_length_ne hlen] at h h'
    cases h; cases h'
    rfl

theorem execIsValid_response_congr {s s' t t' : State} {code : List Ch}
    (hcfg : s.cfg = s'.cfg) (hlatch : s.latch = s'.latch) (hop : s.latch.op = opIsValid)
    (h : execIsValid code s = .next t) (h' : execIsValid code s' = .next t') :
    response t = response t' := by
  cases h; cases h'
  rw [response_respondOk, response_respondOk, resultFields_of_isValid (by simpa using hop),
    resultFields_of_isValid (by simpa [← hlatch] using hop)]
  simp [hcfg]

/-- The response to the command in the latches is a function of it and of the parameters, whatever
the other registers hold and whatever the host has (43_properties R113). -/
theorem exec_response_congr {s s' t t' : State} {i : Instr} (hcfg : s.cfg = s'.cfg)
    (hlatch : s.latch = s'.latch) (hi : decodeLatches s.latch = .ok i)
    (h : exec i s = .next t) (h' : exec i s' = .next t') : response t = response t' := by
  rcases decodeFields_ok_cases hi with ⟨hop, rfl⟩ | ⟨hop, rfl⟩ | ⟨hop, rfl⟩
  · exact execEncode_response_congr hcfg hlatch hop h h'
  · exact execDecode_response_congr hcfg hlatch hop h h'
  · exact execIsValid_response_congr hcfg hlatch hop h h'

theorem responseTo_of_exec {cfg : Config} {c : Command} {i : Instr} {t : State}
    (hi : decodeLatches (accept c { State.reset with cfg := cfg }).latch = .ok i)
    (h : exec i (accept c { State.reset with cfg := cfg }) = .next t) :
    responseTo cfg c = response t := by
  simp only [responseTo, hi, h]

/-- The step after an acceptance performs the command, and leaves the response that belongs to it,
with the parameters and the host's side as they were. -/
theorem step_accept {s : State} {c : Command} (hpin : s.host.resetPin = false) (hop : c.op ≠ 3) :
    ∃ t, step (accept c s) = .next t ∧ t.run = .done ∧ t.cfg = s.cfg ∧ t.host = s.host ∧
      response t = responseTo s.cfg c ∧ (response t).isSome = true := by
  obtain ⟨i, hi⟩ := decodeLatches_of_op_ne (l := (accept c s).latch) hop
  obtain ⟨t, ht, hdone, hcfg, hlatch, hhost⟩ := exec_next i (accept c s)
  obtain ⟨u, hu, -⟩ := exec_next i (accept c { State.reset with cfg := s.cfg })
  refine ⟨t, (step_of_busy (s := accept c s) hpin rfl hi).trans ht, hdone, hcfg, hhost, ?_,
    response_isSome hdone (by rwa [hlatch])⟩
  rw [responseTo_of_exec hi hu]
  exact exec_response_congr (s := accept c s) (s' := accept c { State.reset with cfg := s.cfg })
    rfl rfl hi ht hu

end Sys2Proof.Machine

namespace Sys2Proof.Claims

open Sys2Proof Sys2Proof.Machine

/-! ### A queue of commands -/

/-- Two steps from waiting: the next command is accepted and performed, and its response stands
there, with the rest of the host's side as it was. -/
theorem run_two_of_waiting {s : State} {c : Command} {rest : List Command} (hs : Waiting s)
    (hc : s.host.commands = c :: rest) (hop : c.op ≠ 3) :
    ∃ t : State, Host.Core.run core 2 s = .next t ∧ t.run = .done ∧ t.cfg = s.cfg ∧
      t.host = { s.host with commands := rest } ∧
      response t = responseTo s.cfg c ∧ (response t).isSome = true := by
  obtain ⟨hpin, hrun⟩ := hs
  obtain ⟨t, hstep, hrest⟩ := step_accept (s := { s with host := { s.host with commands := rest } })
    hpin hop
  refine ⟨t, ?_, hrest⟩
  rw [run_succ_of_step 1 (step_of_idle_cons hpin hrun hc), run_succ_of_step 0 hstep, run_zero]

/-- Three steps from ready: the next command is answered, and its response is taken. -/
theorem run_three_of_ready {s : State} {c : Command} {rest : List Command} (hs : Ready s)
    (hc : s.host.commands = c :: rest) (hop : c.op ≠ 3) :
    ∃ t : State, Host.Core.run core 3 s = .next t ∧ Ready t ∧ t.host.commands = rest ∧
      t.cfg = s.cfg ∧ t.host.taken.map some = s.host.taken.map some ++ [responseTo s.cfg c] := by
  obtain ⟨hwait, htakes⟩ := hs
  obtain ⟨t, hrun, hdone, hcfg, hhost, hresp, hsome⟩ := run_two_of_waiting hwait hc hop
  have hpin : t.host.resetPin = false := by rw [hhost]; exact hwait.1
  have htakes' : t.host.takes = true := by rw [hhost]; exact htakes
  obtain ⟨r, hr⟩ := Option.isSome_iff_exists.mp hsome
  refine ⟨takeResponse t, ?_, ⟨⟨hpin, rfl⟩, htakes'⟩, by simp [hhost], hcfg, ?_⟩
  · rw [run_add 1 hrun, run_succ_of_step 0 (step_of_done_takes hpin hdone htakes'), run_zero]
  · simp [hhost, ← hresp, hr]

/-- Settles O50, by induction on the queue: three steps answer its first command. -/
theorem commandsAnsweredInOrder : Obligations.CommandsAnsweredInOrder := by
  unfold Obligations.CommandsAnsweredInOrder
  intro s hs hops
  generalize hq : s.host.commands = queue at hops
  induction queue generalizing s with
  | nil => exact ⟨s, rfl, hs, hq, rfl, by simp⟩
  | cons c rest ih =>
    obtain ⟨hc, hrest⟩ := List.forall_mem_cons.mp hops
    obtain ⟨t, hrun, ht, htq, hcfg, htaken⟩ := run_three_of_ready hs hq hc
    obtain ⟨u, hrun', hu, huq, hcfg', hutaken⟩ := ih t ht htq hrest
    refine ⟨u, ?_, hu, huq, hcfg'.trans hcfg, ?_⟩
    · rw [List.length_cons, Nat.mul_succ, Nat.add_comm, run_add _ hrun, hrun']
    · rw [hutaken, htaken, hcfg, List.map_cons, List.append_assoc, List.singleton_append]

end Sys2Proof.Claims
end

section
/-! The window of a level: on the lattice of its level, and around the coordinate (43_properties
R114, R115, R116). -/

namespace Sys2Proof.Machine

open Sys2Proof

/-! ### Digits of a quartered axis -/

theorem clampDigit_of_nonneg {v : ℤ} (h : 0 ≤ v) : ((clampDigit v).val : ℤ) = min v 3 := by
  rw [clampDigit_val]; unfold clamp; split <;> [omega; (split <;> omega)]

/-- Rows count from the north, floors from the south. -/
theorem clampDigit_three_sub (v : ℤ) :
    ((clampDigit (3 - v)).val : ℤ) = 3 - (clampDigit v).val := by
  rw [clampDigit_val, clampDigit_val]; unfold clamp; split_ifs <;> omega

/-- A point of an axis of four parts of width `d` lies in the part its digit names, edges included:
the clamp acts at the far end only. -/
theorem quarter_bounds {lo x d : ℚ} (hd : 0 < d) (hlo : lo ≤ x) (hhi : x ≤ lo + 4 * d) :
    lo + d * (clampDigit ⌊(x - lo) / d⌋).val ≤ x ∧
      x ≤ lo + d * ((clampDigit ⌊(x - lo) / d⌋).val + 1) := by
  set q := (x - lo) / d with hq
  have hx : x = lo + d * q := by rw [hq]; field_simp; ring
  have h0 : 0 ≤ q := div_nonneg (by linarith) hd.le
  have h4 : q ≤ 4 := by rw [hq, div_le_iff₀ hd]; linarith
  have hdigit : ((clampDigit ⌊q⌋).val : ℤ) = min ⌊q⌋ 3 :=
    clampDigit_of_nonneg (Int.floor_nonneg.mpr h0)
  have hlow : ((clampDigit ⌊q⌋).val : ℚ) ≤ q := by
    have : ((clampDigit ⌊q⌋).val : ℤ) ≤ ⌊q⌋ := by omega
    exact_mod_cast Int.le_floor.mp this
  have hhigh : q ≤ (clampDigit ⌊q⌋).val + 1 := by
    rcases min_choice ⌊q⌋ 3 with h | h
    · have hval : ((clampDigit ⌊q⌋).val : ℚ) = ⌊q⌋ := by exact_mod_cast hdigit.trans h
      rw [hval]; exact (Int.lt_floor_add_one q).le
    · have hval : ((clampDigit ⌊q⌋).val : ℚ) = 3 := by exact_mod_cast hdigit.trans h
      linarith
  rw [hx]
  constructor <;> gcongr

/-! ### The two narrowings -/

theorem maxLat_eq (w : Window) : w.maxLat = w.minLat + 4 * latDiv w := by unfold latDiv; ring

theorem maxLon_eq (w : Window) : w.maxLon = w.minLon + 4 * lonDiv w := by unfold lonDiv; ring

/-- The narrowing of DECODE is that of ENCODE (41_decode R99). -/
theorem narrowDown_eq_narrowUp (w : Window) (row col : Digit) :
    narrowDown w row col = narrowUp w row col := by
  simp only [narrowDown, narrowUp, maxLat_eq, Window.mk.injEq, and_self, and_true]
  constructor <;> ring

/-! ### The lattice -/

/-- The window is a cell of level `k`: `a` cells of side `36/4^k` up from the south-west corner of
the Bounding Region and `b` across (43_properties R115). -/
def OnLattice (k : ℕ) (w : Window) : Prop :=
  ∃ a b : ℕ, a < 4 ^ k ∧ b < 4 ^ k ∧
    w.minLat = 5 / 2 + a * (36 / 4 ^ k) ∧ w.maxLat = w.minLat + 36 / 4 ^ k ∧
    w.minLon = 127 / 2 + b * (36 / 4 ^ k) ∧ w.maxLon = w.minLon + 36 / 4 ^ k

theorem onLattice_BR : OnLattice 0 BR := ⟨0, 0, by norm_num [BR]⟩

section
variable {k : ℕ} {w : Window}

theorem OnLattice.latSide (h : OnLattice k w) : w.maxLat - w.minLat = 36 / 4 ^ k := by
  obtain ⟨a, b, -, -, -, hnorth, -, -⟩ := h
  rw [hnorth, add_sub_cancel_left]

theorem OnLattice.lonSide (h : OnLattice k w) : w.maxLon - w.minLon = 36 / 4 ^ k := by
  obtain ⟨a, b, -, -, -, -, -, heast⟩ := h
  rw [heast, add_sub_cancel_left]

theorem OnLattice.latDiv_eq (h : OnLattice k w) : latDiv w = 36 / 4 ^ (k + 1) := by
  rw [latDiv, h.latSide, pow_succ, div_div]

theorem OnLattice.lonDiv_eq (h : OnLattice k w) : lonDiv w = 36 / 4 ^ (k + 1) := by
  rw [lonDiv, h.lonSide, pow_succ, div_div]

/-- Narrowing a cell of level `k` gives the cell of level `k + 1` with the digit appended in
base 4. -/
theorem OnLattice.narrowUp (h : OnLattice k w) (row col : Digit) :
    OnLattice (k + 1) (narrowUp w row col) := by
  have hlat := h.latDiv_eq
  have hlon := h.lonDiv_eq
  obtain ⟨a, b, ha, hb, hsouth, -, hwest, -⟩ := h
  have hrow : ((3 - row.val : ℕ) : ℚ) = 3 - row.val := by
    rw [Nat.cast_sub (by omega)]; rfl
  have hside : (36 : ℚ) / 4 ^ k = 4 * (36 / 4 ^ (k + 1)) := by rw [pow_succ]; field_simp
  refine ⟨4 * a + (3 - row.val), 4 * b + col.val, by rw [pow_succ]; omega,
    by rw [pow_succ]; omega, ?_⟩
  simp only [Machine.narrowUp, hlat, hlon, hsouth, hwest, hside]
  push_cast [hrow]
  refine ⟨by ring, by ring, by ring, trivial⟩

end

/-! ### The coordinate in the window -/

/-- The coordinate lies in the window, edges included (43_properties R114). -/
structure HoldsPoint (lat lon : ℚ) (w : Window) : Prop where
  south : w.minLat ≤ lat
  north : lat ≤ w.maxLat
  west : w.minLon ≤ lon
  east : lon ≤ w.maxLon

/-- The narrowing of ENCODE keeps the coordinate in the window. -/
theorem HoldsPoint.narrowUp {lat lon : ℚ} {k : ℕ} {w : Window} (h : HoldsPoint lat lon w)
    (hw : OnLattice k w) : HoldsPoint lat lon (narrowUp w (rowOf w lat) (colOf w lon)) := by
  obtain ⟨hsouth, hnorth, hwest, heast⟩ := h
  have hlat : 0 < latDiv w := by rw [hw.latDiv_eq]; positivity
  have hlon : 0 < lonDiv w := by rw [hw.lonDiv_eq]; positivity
  obtain ⟨hlat0, hlat1⟩ := quarter_bounds hlat hsouth (hnorth.trans_eq (maxLat_eq w))
  obtain ⟨hlon0, hlon1⟩ := quarter_bounds hlon hwest (heast.trans_eq (maxLon_eq w))
  have hrow : ((rowOf w lat).val : ℚ) = 3 - (clampDigit ⌊(lat - w.minLat) / latDiv w⌋).val := by
    exact_mod_cast clampDigit_three_sub ⌊(lat - w.minLat) / latDiv w⌋
  constructor <;> simp only [Machine.narrowUp, hrow, colOf, floorOf_eq] <;> linarith

theorem holdsPoint_BR_of_check {lat lon : CoordNum} {a b : ℚ}
    (h : checkCoordinates lat lon = .ok (a, b)) : HoldsPoint a b BR := by
  obtain ⟨-, -, hsouth, hnorth, hwest, heast⟩ := checkCoordinates_ok_iff.mp h
  exact ⟨hsouth, hnorth, hwest, heast⟩

/-! ### The windows of the two operations -/

theorem encodeLevels_onLattice (lat lon : ℚ) (hyph : Bool) (n : ℕ) (s : State) :
    OnLattice n (encodeLevels lat lon hyph n (startEncode s)).work.window := by
  induction n with
  | zero => exact onLattice_BR
  | succ n ih => rw [encodeLevels_succ]; exact ih.narrowUp _ _

theorem encodeLevels_holdsPoint {lat lon : ℚ} (h : HoldsPoint lat lon BR) (hyph : Bool) (n : ℕ)
    (s : State) : HoldsPoint lat lon (encodeLevels lat lon hyph n (startEncode s)).work.window := by
  induction n with
  | zero => exact h
  | succ n ih =>
    rw [encodeLevels_succ]
    exact ih.narrowUp (encodeLevels_onLattice lat lon hyph n s)

/-- From a cell of level `k`, the levels of DECODE lead to one as many levels further. -/
theorem decodeLevels_onLattice {symbols : List Ch} {k : ℕ} {s t : State}
    (hs : OnLattice k s.work.window) (h : decodeLevels symbols s = .ok t) :
    OnLattice (k + symbols.length) t.work.window := by
  induction symbols generalizing s k with
  | nil => cases h; exact hs
  | cons ch rest ih =>
    unfold decodeLevels at h
    cases hc : inv s.cfg.grid ch with
    | none => simp [hc] at h
    | some cell =>
      simp only [hc] at h
      have hnext : OnLattice (k + 1) (decodeLevel cell.1 cell.2 s).work.window := by
        rw [decodeLevel_window, narrowDown_eq_narrowUp]; exact hs.narrowUp _ _
      rw [List.length_cons, Nat.add_comm rest.length, ← Nat.add_assoc]
      exact ih hnext h

end Sys2Proof.Machine
end

section
/-! The code and the grid index of ENCODE, level by level (30_encoding R46, R50; 40_encode R76,
R81). -/

namespace Sys2Proof.Machine

open Sys2Proof

@[simp] theorem encodeLevels_cfg (lat lon : ℚ) (hyph : Bool) (n : ℕ) (s : State) :
    (encodeLevels lat lon hyph n s).cfg = s.cfg := by
  rw [encodeLevels_frame]

@[simp] theorem encodeLevels_canon (lat lon : ℚ) (hyph : Bool) (n : ℕ) (s : State) :
    (encodeLevels lat lon hyph n s).work.canon = s.work.canon := by
  rw [encodeLevels_frame]

theorem encodeLevels_level_ten (lat lon : ℚ) (hyph : Bool) (s : State) :
    (encodeLevels lat lon hyph LEVELS (startEncode s)).work.level = 10 := by
  rw [LEVELS, encodeLevels_succ, encodeLevel_level, encodeLevels_level lat lon hyph s le_rfl]
  rfl

/-! ### Digits of a grid index -/

/-- The symbol of a digit (30_encoding R49). -/
def symbolOf (g : SymbolGrid) (n : BitVec 4) : Ch := gridAt g (digitRow n) (digitCol n)

/-- The symbols of the last `n` digits of a grid index, in the order of the digits. -/
def lastSymbols (g : SymbolGrid) (n : ℕ) (x : GridIndex) : List Ch :=
  (List.range n).map fun i => symbolOf g (x.extractLsb' (4 * (n - 1 - i)) 4)

@[simp] theorem lastSymbols_length (g : SymbolGrid) (n : ℕ) (x : GridIndex) :
    (lastSymbols g n x).length = n := by simp [lastSymbols]

theorem lastSymbols_ten (g : SymbolGrid) (x : GridIndex) : lastSymbols g 10 x = symbolsOf g x := rfl

theorem symbolOf_digitValue (g : SymbolGrid) (row col : Digit) :
    symbolOf g (BitVec.ofNat 4 (digitValue row col)) = gridAt g row col := by
  have h : ∀ row col : Digit, digitRow (BitVec.ofNat 4 (digitValue row col)) = row ∧
      digitCol (BitVec.ofNat 4 (digitValue row col)) = col := by decide
  rw [symbolOf, (h row col).1, (h row col).2]

/-- Shifting a digit in moves the nine digits below the top one up and places it last. -/
theorem shiftIn_eq_append (x : GridIndex) {n : ℕ} (hn : n < 16) :
    x * 16 + BitVec.ofNat 40 n = x.setWidth 36 ++ BitVec.ofNat 4 n := by
  apply BitVec.eq_of_toNat_eq
  rw [BitVec.toNat_append, ← Nat.shiftLeft_add_eq_or_of_lt (BitVec.ofNat 4 n).isLt]
  simp [Nat.shiftLeft_eq]
  omega

theorem lastSymbols_shiftIn (g : SymbolGrid) {n : ℕ} (hn : n ≤ 9) (x : GridIndex)
    (row col : Digit) :
    lastSymbols g (n + 1) (x * 16 + BitVec.ofNat 40 (digitValue row col)) =
      lastSymbols g n x ++ [gridAt g row col] := by
  rw [shiftIn_eq_append x (digitValue_lt row col)]
  have hlast : (x.setWidth 36 ++ BitVec.ofNat 4 (digitValue row col)).extractLsb' (4 * (n - n)) 4 =
      BitVec.ofNat 4 (digitValue row col) := by
    rw [Nat.sub_self]; exact BitVec.extractLsb'_append_eq_right
  have hrest : ∀ i < n,
      (x.setWidth 36 ++ BitVec.ofNat 4 (digitValue row col)).extractLsb' (4 * (n - i)) 4 =
        x.extractLsb' (4 * (n - 1 - i)) 4 := by
    intro i hi
    rw [BitVec.extractLsb'_append_eq_of_le (by omega), BitVec.extractLsb'_setWidth_of_le (by omega),
      show 4 * (n - i) - 4 = 4 * (n - 1 - i) by omega]
  simp only [lastSymbols, List.range_succ, List.map_append, List.map_singleton, Nat.add_sub_cancel]
  rw [hlast, symbolOf_digitValue]
  congr 1
  exact List.map_congr_left fun i hi => by rw [hrest i (List.mem_range.mp hi)]

/-! ### The code -/

/-- What the levels append for the symbols `l`, level 1 first. -/
def spelled (hyph : Bool) (l : List Ch) : List Ch :=
  (l.zipIdx 1).flatMap fun p => levelOutput hyph p.2 p.1

theorem spelled_append_singleton (hyph : Bool) (l : List Ch) (ch : Ch) :
    spelled hyph (l ++ [ch]) = spelled hyph l ++ levelOutput hyph (l.length + 1) ch := by
  simp [spelled, List.zipIdx_append, Nat.add_comm]

theorem spelled_symbolsOf (hyph : Bool) (g : SymbolGrid) (x : GridIndex) :
    spelled hyph (symbolsOf g x) = rendered hyph (symbolsOf g x) := by
  cases hyph <;> rfl

/-- After `n` levels the code spells the last `n` digits of the grid index. -/
theorem encodeLevels_codeOut (lat lon : ℚ) (hyph : Bool) {n : ℕ} (hn : n ≤ 10) (s : State) :
    (encodeLevels lat lon hyph n (startEncode s)).work.codeOut =
      spelled hyph (lastSymbols s.cfg.grid n
        (encodeLevels lat lon hyph n (startEncode s)).work.gidx) := by
  induction n with
  | zero => rfl
  | succ n ih =>
    rw [encodeLevels_succ, encodeLevel_codeOut, encodeLevel_gidx, encodeLevels_cfg, startEncode_cfg,
      lastSymbols_shiftIn _ (by omega), spelled_append_singleton, lastSymbols_length,
      encodeLevels_level _ _ _ _ (by omega), ih (by omega)]

/-- The code of a completed ENCODE is the rendered spelling of its grid index. -/
theorem encodeLevels_codeOut_ten (lat lon : ℚ) (hyph : Bool) (s : State) :
    (encodeLevels lat lon hyph LEVELS (startEncode s)).work.codeOut =
      rendered hyph (symbolsOf s.cfg.grid
        (encodeLevels lat lon hyph LEVELS (startEncode s)).work.gidx) := by
  rw [← spelled_symbolsOf]
  exact encodeLevels_codeOut lat lon hyph le_rfl s

end Sys2Proof.Machine
end

section
/-! How an operation ends, and the legal states (Safety.lean). -/

namespace Sys2Proof.Machine

open Sys2Proof Sys2Proof.Claims

/-! ### Acceptance and taking (10_state R22) -/

/-- Settles O2: it is the acceptance branch of the step. -/
theorem acceptanceLatchesTheCommand : Obligations.AcceptanceLatchesTheCommand := by
  unfold Obligations.AcceptanceLatchesTheCommand
  exact fun s c rest => step_of_idle_cons

theorem step_of_done_keeps {s : State} (hpin : s.host.resetPin = false) (hrun : s.run = .done)
    (htakes : s.host.takes = false) : step s = .next s := by
  simp [step, hpin, hrun, htakes]

theorem response_of_idle {s : State} (hrun : s.run = .idle) : response s = none := by
  simp [response, hrun]

/-- Settles O4: the two branches of the step in `DONE`. -/
theorem responseStaysUntilTaken : Obligations.ResponseStaysUntilTaken := by
  unfold Obligations.ResponseStaysUntilTaken
  intro s hpin hrun
  exact ⟨step_of_done_keeps hpin hrun, fun htakes =>
    ⟨takeResponse s, step_of_done_takes hpin hrun htakes, rfl,
      response_of_idle (takeResponse_run s)⟩⟩

/-! ### `LEVEL` and `ERRINFO` -/

/-- `LEVEL` is in `1 .. 10` (10_state R17). -/
def LevelInRange (s : State) : Prop := 1 ≤ s.work.level ∧ s.work.level ≤ 10

theorem nextLevel_mem {level : ℕ} (h : 1 ≤ level ∧ level ≤ 10) :
    1 ≤ nextLevel level ∧ nextLevel level ≤ 10 := by
  unfold nextLevel LEVELS
  split
  · omega
  · exact h

theorem LevelInRange.decodeLevel {s : State} (h : LevelInRange s) (row col : Digit) :
    LevelInRange (decodeLevel row col s) := nextLevel_mem h

/-- `ERRINFO` fits `STATUS` (30_encoding R57). -/
def InfoFits (s : State) : Prop :=
  (s.res.status = 0 → s.res.errinfo = 0) ∧ (s.res.status = 2 → s.res.errinfo = 0) ∧
    (s.res.status = 1 → s.res.errinfo.toNat ≤ 5)

theorem infoFits_respondOk (s : State) : InfoFits (respondOk s) :=
  ⟨fun _ => rfl, fun _ => rfl, fun _ => Nat.zero_le 5⟩

theorem infoFits_reset : InfoFits State.reset :=
  ⟨fun _ => rfl, fun _ => rfl, fun _ => Nat.zero_le 5⟩

theorem Bound.info_le (b : Bound) : (ErrorKind.outOfRange b).info.toNat ≤ 5 := by
  cases b <;> decide

theorem infoFits_raiseError (e : ErrorKind) (s : State) : InfoFits (raiseError e s) := by
  cases e with
  | outOfRange b => exact ⟨nofun, nofun, fun _ => b.info_le⟩
  | format => exact ⟨nofun, fun _ => rfl, nofun⟩
  | invalidSymbol ch => exact ⟨nofun, nofun, nofun⟩

/-! ### The end of an ENCODE -/

theorem encodeEnded_raiseError {s : State} {b : Bound}
    (hc : checkCoordinates s.latch.lat s.latch.lon = .error b) :
    encodeEnded (raiseError (.outOfRange b) s) := by
  simp only [encodeEnded, raiseError_latch, hc]
  exact ⟨rfl, rfl⟩

theorem encodeEnded_respondOk {s : State} {a b : ℚ}
    (hc : checkCoordinates s.latch.lat s.latch.lon = .ok (a, b))
    (hcode : s.work.codeOut = rendered s.latch.hyph (symbolsOf s.cfg.grid s.work.gidx))
    (hpoint : HoldsPoint a b s.work.window) (hcell : OnLattice 10 s.work.window) :
    encodeEnded (respondOk s) := by
  simp only [encodeEnded, respondOk_latch, respondOk_work, respondOk_cfg, hc]
  exact ⟨rfl, hcode, hpoint.south, hpoint.north, hpoint.west, hpoint.east, hcell.latSide,
    hcell.lonSide⟩

/-- What the range check lets through ends, ten levels on, in the cell of the coordinate. -/
theorem encodeEnded_encodeLevels {s : State} {a b : ℚ}
    (hc : checkCoordinates s.latch.lat s.latch.lon = .ok (a, b)) :
    encodeEnded (respondOk (encodeLevels a b s.latch.hyph LEVELS (startEncode s))) := by
  refine encodeEnded_respondOk (by simpa using hc) ?_
    (encodeLevels_holdsPoint (holdsPoint_BR_of_check hc) s.latch.hyph LEVELS s)
    (encodeLevels_onLattice a b s.latch.hyph LEVELS s)
  simpa using encodeLevels_codeOut_ten a b s.latch.hyph s

/-! ### The end of a DECODE -/

/-- Where the levels of DECODE end, after the last symbol or at the first foreign character. -/
def levelsEnd (symbols : List Ch) (s : State) : State :=
  match decodeLevels symbols s with
  | .ok t => t
  | .error (_, t) => t

section
variable {symbols : List Ch} {s t : State}

theorem levelsEnd_of_ok (h : decodeLevels symbols s = .ok t) : levelsEnd symbols s = t := by
  simp only [levelsEnd, h]

theorem levelsEnd_of_error {ch : Ch} (h : decodeLevels symbols s = .error (ch, t)) :
    levelsEnd symbols s = t := by
  simp only [levelsEnd, h]

end

section
variable (symbols : List Ch) (s : State)

theorem levelsEnd_frame : levelsEnd symbols s =
    { s with work := { s.work with window := (levelsEnd symbols s).work.window,
                                   level := (levelsEnd symbols s).work.level } } := by
  have hframe := decodeLevels_frame symbols s
  cases hd : decodeLevels symbols s with
  | ok t => simp only [hd] at hframe; rwa [levelsEnd_of_ok hd]
  | error p => simp only [hd] at hframe; rwa [levelsEnd_of_error hd]

@[simp] theorem levelsEnd_cfg : (levelsEnd symbols s).cfg = s.cfg := by rw [levelsEnd_frame]
@[simp] theorem levelsEnd_latch : (levelsEnd symbols s).latch = s.latch := by rw [levelsEnd_frame]
@[simp] theorem levelsEnd_canon : (levelsEnd symbols s).work.canon = s.work.canon := by
  rw [levelsEnd_frame]

end

/-- The levels of DECODE keep `LEVEL` in range. -/
theorem LevelInRange.levelsEnd (symbols : List Ch) {s : State} (h : LevelInRange s) :
    LevelInRange (levelsEnd symbols s) := by
  induction symbols generalizing s with
  | nil => exact h
  | cons ch rest ih =>
    unfold Machine.levelsEnd Machine.decodeLevels
    cases inv s.cfg.grid ch with
    | none => exact h
    | some cell => exact ih (h.decodeLevel cell.1 cell.2)

/-- DECODE past its length check reports the character its levels end at, or the centroid. -/
theorem decodeSymbols_cases (s : State) :
    (∃ ch, decodeLevels s.work.canon (startDecode s) =
        .error (ch, levelsEnd s.work.canon (startDecode s)) ∧
      decodeSymbols s =
        raiseError (.invalidSymbol ch) (levelsEnd s.work.canon (startDecode s))) ∨
    (decodeLevels s.work.canon (startDecode s) = .ok (levelsEnd s.work.canon (startDecode s)) ∧
      decodeSymbols s = respondOk (writeCentroid (levelsEnd s.work.canon (startDecode s)))) := by
  cases hd : decodeLevels s.work.canon (startDecode s) with
  | error p =>
    rw [levelsEnd_of_error hd]
    exact .inl ⟨p.1, rfl, by simp only [decodeSymbols, hd]⟩
  | ok t =>
    rw [levelsEnd_of_ok hd]
    exact .inr ⟨rfl, by simp only [decodeSymbols, hd]⟩

@[simp] theorem decodeSymbols_work (s : State) :
    (decodeSymbols s).work = (levelsEnd s.work.canon (startDecode s)).work := by
  rcases decodeSymbols_cases s with ⟨ch, -, h⟩ | ⟨-, h⟩ <;> rw [h]
  · rfl
  · rfl

theorem infoFits_decodeSymbols (s : State) : InfoFits (decodeSymbols s) := by
  rcases decodeSymbols_cases s with ⟨ch, -, h⟩ | ⟨-, h⟩ <;> rw [h]
  · exact infoFits_raiseError _ _
  · exact infoFits_respondOk _

/-- The centre of a level-10 cell along one axis of the Bounding Region. -/
theorem centre_mem {origin lo hi : ℚ} {n : ℕ} (hn : n < 4 ^ 10)
    (hlo : lo = origin + n * (36 / 4 ^ 10)) (hhi : hi = lo + 36 / 4 ^ 10) :
    origin + cellSide / 2 ≤ (lo + hi) / 2 ∧ (lo + hi) / 2 ≤ origin + 36 - cellSide / 2 := by
  have h0 : (0 : ℚ) ≤ n := n.cast_nonneg
  have h1 : (n : ℚ) + 1 ≤ 4 ^ 10 := by exact_mod_cast hn
  rw [hhi, hlo, cellSide]
  constructor <;> linarith

theorem OnLattice.latCentre_mem {w : Window} (h : OnLattice 10 w) :
    5 / 2 + cellSide / 2 ≤ (w.minLat + w.maxLat) / 2 ∧
      (w.minLat + w.maxLat) / 2 ≤ 77 / 2 - cellSide / 2 := by
  obtain ⟨a, -, ha, -, hsouth, hnorth, -, -⟩ := h
  obtain ⟨hlow, hhigh⟩ := centre_mem ha hsouth hnorth
  exact ⟨hlow, by linarith⟩

theorem OnLattice.lonCentre_mem {w : Window} (h : OnLattice 10 w) :
    127 / 2 + cellSide / 2 ≤ (w.minLon + w.maxLon) / 2 ∧
      (w.minLon + w.maxLon) / 2 ≤ 199 / 2 - cellSide / 2 := by
  obtain ⟨-, b, -, hb, -, -, hwest, heast⟩ := h
  obtain ⟨hlow, hhigh⟩ := centre_mem hb hwest heast
  exact ⟨hlow, by linarith⟩

/-- A rounding between bounds of 27 bits is kept whole by its register. -/
theorem toNat_round6_mem {q : ℚ} {m n : ℕ} (hm : (m : ℚ) - 1 / 2 ≤ q * 10 ^ 6)
    (hn : q * 10 ^ 6 < (n : ℚ) + 1 / 2) (h27 : n < 2 ^ 27) :
    m ≤ (BitVec.ofNat 27 (round6 q)).toNat ∧ (BitVec.ofNat 27 (round6 q)).toNat ≤ n ∧
      (BitVec.ofNat 27 (round6 q)).toNat = round6 q := by
  have hval : (BitVec.ofNat 27 (round6 q)).toNat = round6 q :=
    Nat.mod_eq_of_lt ((round6_le hn).trans_lt h27)
  exact ⟨(le_round6 hm).trans_eq hval.symm, hval.trans_le (round6_le hn), hval⟩

/-- The results written from a level-10 cell are in the range of 43_properties R124. -/
theorem responseLegal_writeCentroid (g : SymbolGrid) {t : State} (h : OnLattice 10 t.work.window) :
    responseLegal g (.ok (.decoded (writeCentroid t).res.latC (writeCentroid t).res.lonC
      (writeCentroid t).res.latStr (writeCentroid t).res.lonStr (writeCentroid t).res.latUdeg
      (writeCentroid t).res.lonUdeg)) := by
  have hlat := h.latCentre_mem
  have hlon := h.lonCentre_mem
  rw [cellSide] at hlat hlon
  obtain ⟨hlat0, hlat1, hlatVal⟩ :=
    toNat_round6_mem (q := (t.work.window.minLat + t.work.window.maxLat) / 2)
      (m := 2500017) (n := 38499983) (by push_cast; linarith) (by push_cast; linarith) (by norm_num)
  obtain ⟨hlon0, hlon1, hlonVal⟩ :=
    toNat_round6_mem (q := (t.work.window.minLon + t.work.window.maxLon) / 2)
      (m := 63500017) (n := 99499983) (by push_cast; linarith) (by push_cast; linarith) (by norm_num)
  exact ⟨hlat0, hlat1, hlon0, hlon1, (congrArg render6 hlatVal).symm,
    (congrArg render6 hlonVal).symm⟩

theorem decodeEnded_format {s : State} (hlen : (strip s.latch.codeIn).length ≠ CODE_SYMS) :
    decodeEnded (raiseError .format (writeCanon s.latch.codeIn s)) :=
  ⟨rfl, .inl ⟨rfl, hlen⟩⟩

/-- A foreign character or the end of the levels, as `decodeLevels` has it. -/
theorem decodeEnded_decodeSymbols {s : State} (hcanon : s.work.canon = strip s.latch.codeIn)
    (hlen : s.work.canon.length = CODE_SYMS) : decodeEnded (decodeSymbols s) := by
  rcases decodeSymbols_cases s with ⟨ch, hd, hend⟩ | ⟨hd, hend⟩ <;> rw [hend]
  · obtain ⟨before, after, hsplit, -, hforeign⟩ := decodeLevels_error hd
    have hmem : ch ∈ s.work.canon := hsplit ▸ List.mem_append_right before List.mem_cons_self
    simp only [decodeEnded, raiseError_work, raiseError_latch, raiseError_cfg, levelsEnd_canon,
      levelsEnd_latch, levelsEnd_cfg]
    exact ⟨hcanon, .inr (.inl ⟨rfl, hlen, hmem, hforeign⟩)⟩
  · have hall := (decodeLevels_ok_iff s.work.canon (startDecode s)).mp ⟨_, hd⟩
    have hcell : OnLattice 10 (levelsEnd s.work.canon (startDecode s)).work.window := by
      simpa [hlen, CODE_SYMS] using decodeLevels_onLattice (s := startDecode s) onLattice_BR hd
    simp only [decodeEnded, respondOk_work, respondOk_latch, respondOk_cfg, writeCentroid_work,
      writeCentroid_latch, writeCentroid_cfg, levelsEnd_canon, levelsEnd_latch, levelsEnd_cfg]
    exact ⟨hcanon, .inr (.inr ⟨rfl, hlen, hall, responseLegal_writeCentroid _ hcell⟩)⟩

/-! ### The operations keep the legal states -/

/-- What is left to show of an operation, which keeps the parameters and the host's side. -/
theorem Legal.of_exec {i : Instr} {s t : State} (h : Legal s) (hx : exec i s = .next t)
    (hlevel : LevelInRange t) (hcanon : SEP ∉ t.work.canon) (hinfo : InfoFits t)
    (hended : (s.latch.op = 0 ∧ encodeEnded t) ∨ (s.latch.op = 1 ∧ decodeEnded t) ∨
      (s.latch.op = 2 ∧ isValidEnded t)) : Legal t := by
  obtain ⟨u, hu, -, hcfg, hlatch, hhost⟩ := exec_next i s
  cases hx.symm.trans hu
  exact ⟨hcfg ▸ h.grid, hlevel, hcanon, hinfo, fun _ => hlatch ▸ hended,
    by rw [hcfg, hhost]; exact h.taken⟩

theorem exec_encode_legal {s t : State} (h : Legal s) (hop : s.latch.op = opEncode)
    (hx : exec (.encode s.latch.lat s.latch.lon s.latch.hyph) s = .next t) : Legal t := by
  cases hc : checkCoordinates s.latch.lat s.latch.lon with
  | error b =>
    have ht : raiseError (.outOfRange b) s = t := by simpa [exec, execEncode, hc] using hx
    subst ht
    exact h.of_exec hx h.level h.canon (infoFits_raiseError _ s)
      (.inl ⟨hop, encodeEnded_raiseError hc⟩)
  | ok p =>
    obtain ⟨a, b⟩ := p
    have ht : respondOk (encodeLevels a b s.latch.hyph LEVELS (startEncode s)) = t := by
      simpa [exec, execEncode, hc] using hx
    subst ht
    refine h.of_exec hx ?_ ?_ (infoFits_respondOk _) (.inl ⟨hop, encodeEnded_encodeLevels hc⟩)
    · simp [LevelInRange, encodeLevels_level_ten]
    · simpa using h.canon

theorem exec_decode_legal {s t : State} (h : Legal s) (hop : s.latch.op = opDecode)
    (hx : exec (.decode s.latch.codeIn) s = .next t) : Legal t := by
  by_cases hlen : (strip s.latch.codeIn).length = CODE_SYMS
  · have ht : decodeSymbols (writeCanon s.latch.codeIn s) = t := by
      simpa using (execDecode_of_length hlen).symm.trans hx
    subst ht
    refine h.of_exec hx ?_ ?_ (infoFits_decodeSymbols _)
      (.inr (.inl ⟨hop, decodeEnded_decodeSymbols rfl hlen⟩))
    · rw [LevelInRange, decodeSymbols_work]
      exact LevelInRange.levelsEnd _ ⟨le_rfl, by simp⟩
    · simpa using sep_not_mem_strip s.latch.codeIn
  · have ht : raiseError .format (writeCanon s.latch.codeIn s) = t := by
      simpa using (execDecode_of_length_ne hlen).symm.trans hx
    subst ht
    exact h.of_exec hx h.level (sep_not_mem_strip _) (infoFits_raiseError _ _)
      (.inr (.inl ⟨hop, decodeEnded_format hlen⟩))

theorem exec_isvalid_legal {s t : State} (h : Legal s) (hop : s.latch.op = opIsValid)
    (hx : exec (.isvalid s.latch.codeIn) s = .next t) : Legal t := by
  have ht : respondOk (writeValid ((strip s.latch.codeIn).length == CODE_SYMS &&
      allSymbols s.cfg.grid (strip s.latch.codeIn)) (writeCanon s.latch.codeIn s)) = t := by
    simpa [exec, execIsValid] using hx
  subst ht
  refine h.of_exec hx h.level (sep_not_mem_strip _) (infoFits_respondOk _)
    (.inr (.inr ⟨hop, rfl, rfl, ?_⟩))
  simp [CODE_SYMS]

theorem exec_legal {i : Instr} {s t : State} (h : Legal s) (hi : decodeLatches s.latch = .ok i)
    (hx : exec i s = .next t) : Legal t := by
  rcases decodeFields_ok_cases hi with ⟨hop, rfl⟩ | ⟨hop, rfl⟩ | ⟨hop, rfl⟩
  · exact exec_encode_legal h hop hx
  · exact exec_decode_legal h hop hx
  · exact exec_isvalid_legal h hop hx

/-! ### The responses of legal states -/

theorem response_of_error {s : State} (hrun : s.run = .done) (hst : s.res.status ≠ 0) :
    response s = some (.error s.res.status s.res.errinfo) := by
  simp only [response, hrun]
  exact if_neg hst

theorem response_of_ok {s : State} (hrun : s.run = .done) (hst : s.res.status = 0) :
    response s = (resultFields s).map .ok := by
  simp only [response, hrun]
  exact if_pos hst

/-- A response that belongs to an ENCODE is legal: a code with a spelling, or a bound. -/
theorem responseLegal_of_encodeEnded {s : State} {r : Response} (hrun : s.run = .done)
    (hop : s.latch.op = opEncode) (h : encodeEnded s) (hr : response s = some r) :
    responseLegal s.cfg.grid r := by
  unfold encodeEnded at h
  split at h
  next b _ =>
    obtain ⟨hst, hinfo⟩ := h
    rw [response_of_error hrun (by simp [hst])] at hr
    cases hr
    exact .inl ⟨hst, hinfo ▸ b.info_le⟩
  next =>
    obtain ⟨hst, hcode, -⟩ := h
    rw [response_of_ok hrun hst, resultFields_of_encode hop] at hr
    cases hr
    exact ⟨s.latch.hyph, hcode⟩

/-- A response that belongs to a DECODE is legal in each of its three endings. -/
theorem responseLegal_of_decodeEnded {s : State} {r : Response} (hrun : s.run = .done)
    (hop : s.latch.op = opDecode) (hinfo : InfoFits s) (h : decodeEnded s)
    (hr : response s = some r) : responseLegal s.cfg.grid r := by
  obtain ⟨-, ⟨hst, -⟩ | ⟨hst, -, -, hforeign⟩ | ⟨hst, -, -, hlegal⟩⟩ := h
  · rw [response_of_error hrun (by simp [hst])] at hr
    cases hr
    exact .inr (.inl ⟨hst, hinfo.2.1 hst⟩)
  · rw [response_of_error hrun (by simp [hst])] at hr
    cases hr
    exact .inr (.inr ⟨hst, hforeign⟩)
  · rw [response_of_ok hrun hst, resultFields_of_decode hop] at hr
    cases hr
    exact hlegal

theorem responseLegal_of_isValidEnded {s : State} {r : Response} (hrun : s.run = .done)
    (hop : s.latch.op = opIsValid) (h : isValidEnded s) (hr : response s = some r) :
    responseLegal s.cfg.grid r := by
  obtain ⟨-, hst, -⟩ := h
  rw [response_of_ok hrun hst, resultFields_of_isValid hop] at hr
  cases hr
  trivial

theorem Legal.responseLegal {s : State} {r : Response} (h : Legal s) (hrun : s.run = .done)
    (hr : response s = some r) : responseLegal s.cfg.grid r := by
  rcases h.ended hrun with ⟨hop, hend⟩ | ⟨hop, hend⟩ | ⟨hop, hend⟩
  · exact responseLegal_of_encodeEnded hrun hop hend hr
  · exact responseLegal_of_decodeEnded hrun hop h.info hend hr
  · exact responseLegal_of_isValidEnded hrun hop hend hr

/-! ### The other steps keep the legal states -/

/-- Outside `DONE` no response is available that would have to belong to a command. -/
theorem Legal.of_same_registers {s t : State} (h : Legal s) (hcfg : t.cfg = s.cfg)
    (hwork : t.work = s.work) (hres : t.res = s.res) (hrun : t.run ≠ .done)
    (htaken : ∀ r ∈ t.host.taken, Machine.responseLegal s.cfg.grid r) : Legal t := by
  obtain ⟨hgrid, hlevel, hcanon, hinfo, -, -⟩ := h
  exact ⟨hcfg ▸ hgrid, hwork ▸ hlevel, hwork ▸ hcanon, hres ▸ hinfo, fun hd => absurd hd hrun,
    hcfg ▸ htaken⟩

theorem Legal.accept {s : State} (h : Legal s) (c : Command) (rest : List Command) :
    Legal (accept c { s with host := { s.host with commands := rest } }) :=
  h.of_same_registers rfl rfl rfl nofun h.taken

theorem Legal.takeResponse {s : State} (h : Legal s) (hrun : s.run = .done) :
    Legal (takeResponse s) := by
  refine h.of_same_registers rfl rfl rfl nofun fun r hr => ?_
  rw [takeResponse_taken, List.mem_append, Option.mem_toList] at hr
  rcases hr with hold | hnew
  · exact h.taken r hold
  · exact h.responseLegal hrun hnew

/-- The registers at reset are legal, whatever an admissible unit holds and its host has taken. -/
theorem legal_assertReset {s : State} (hgrid : gridAdmissible s.cfg.grid = true)
    (htaken : ∀ r ∈ s.host.taken, responseLegal s.cfg.grid r) : Legal (assertReset s) :=
  ⟨hgrid, ⟨le_rfl, Nat.one_le_ofNat⟩, List.not_mem_nil, infoFits_reset, nofun, htaken⟩

theorem gDefault_admissible : gridAdmissible gDefault = true := by decide +kernel

/-- Settles O56: reset leads from the reset state to itself. -/
theorem resetStateIsLegal : Obligations.ResetStateIsLegal := by
  unfold Obligations.ResetStateIsLegal
  exact legal_assertReset (s := State.reset) gDefault_admissible nofun

/-- Settles O55, by the cases of a step. -/
theorem stepKeepsLegalStates : Obligations.StepKeepsLegalStates := by
  unfold Obligations.StepKeepsLegalStates
  intro s t h hstep
  rcases step_cases hstep with ⟨-, rfl⟩ | ⟨-, ⟨-, -, rfl⟩ | ⟨c, rest, -, -, rfl⟩ |
    ⟨i, -, hi, hx⟩ | ⟨hrun, -, rfl⟩ | ⟨-, -, rfl⟩⟩
  · exact legal_assertReset h.grid h.taken
  · exact h
  · exact h.accept c rest
  · exact exec_legal h hi hx
  · exact h.takeResponse hrun
  · exact h

end Sys2Proof.Machine
end

section
/-! What every step keeps, every run keeps; the tables among it (20_memory R42). -/

namespace Sys2Proof.Machine

open Sys2Proof

/-- A run that answers begins with a step that answers. -/
theorem step_of_run_succ {n : ℕ} {s t : State} (h : Host.Core.run core (n + 1) s = .next t) :
    ∃ u, step s = .next u ∧ Host.Core.run core n u = .next t := by
  simp only [Host.Core.run] at h
  cases hs : core.step s with
  | next u => simp only [hs] at h; exact ⟨u, hs, h⟩
  | fault r => simp [hs] at h
  | refused r => simp [hs] at h

/-- An invariant of the step is an invariant of runs of any length. -/
theorem run_keeps {P : State → Prop} (hstep : ∀ {s t : State}, step s = .next t → P s → P t)
    {n : ℕ} {s t : State} (hrun : Host.Core.run core n s = .next t) (hs : P s) : P t := by
  induction n generalizing s with
  | zero => cases hrun; exact hs
  | succ n ih =>
    obtain ⟨u, hu, hrest⟩ := step_of_run_succ hrun
    exact ih hrest (hstep hu hs)

/-- No run changes the parameters. -/
theorem run_cfg {n : ℕ} {s t : State} (h : Host.Core.run core n s = .next t) : t.cfg = s.cfg :=
  run_keeps (P := fun u => u.cfg = s.cfg) (fun hstep hu => (step_cfg hstep).trans hu) h rfl

/-- Settles O51: both tables are functions of the parameters, which no run changes. -/
theorem tablesNeverChange : Obligations.TablesNeverChange := by
  unfold Obligations.TablesNeverChange
  intro n s t h
  have hcfg : t.cfg = s.cfg := run_cfg h
  exact ⟨hcfg, fun ch => by rw [hcfg], fun r c => by rw [hcfg]⟩

end Sys2Proof.Machine
end

section
/-! The bits that spell a value in binary64, and the value of any bits (30_encoding R58). -/

namespace Sys2Proof

/-! ### The value of the bits by their exponent -/

section
variable {bits : BitVec 64}

theorem binary64Val_of_max (h : (bits.extractLsb' 52 11).toNat = 2047) :
    binary64Val bits = .nonfinite := if_pos h

theorem binary64Val_of_zero (h : (bits.extractLsb' 52 11).toNat = 0) :
    binary64Val bits = .fin (if bits.getLsbD 63 then
      -binary64Magnitude (bits.extractLsb' 0 52).toNat 1
      else binary64Magnitude (bits.extractLsb' 0 52).toNat 1) := by
  have hmax : (bits.extractLsb' 52 11).toNat ≠ 2047 := by omega
  simp only [binary64Val, if_pos h, if_neg hmax]

theorem binary64Val_of_normal (h0 : (bits.extractLsb' 52 11).toNat ≠ 0)
    (hmax : (bits.extractLsb' 52 11).toNat ≠ 2047) :
    binary64Val bits = .fin (if bits.getLsbD 63 then
      -binary64Magnitude (2 ^ 52 + (bits.extractLsb' 0 52).toNat) (bits.extractLsb' 52 11).toNat
      else binary64Magnitude (2 ^ 52 + (bits.extractLsb' 0 52).toNat)
        (bits.extractLsb' 52 11).toNat) := by
  simp only [binary64Val, if_neg h0, if_neg hmax]

end

/-! ### The fields of bits put together -/

section
variable (s : BitVec 1) (e : BitVec 11) (f : BitVec 52)

theorem sign_of_append : (s ++ e ++ f).getLsbD 63 = s.getLsbD 0 := by
  simp only [BitVec.getLsbD_append]
  rfl

theorem exponent_of_append : (s ++ e ++ f).extractLsb' 52 11 = e := by
  rw [BitVec.extractLsb'_append_eq_of_le le_rfl]
  exact BitVec.extractLsb'_append_eq_right

theorem fraction_of_append : (s ++ e ++ f).extractLsb' 0 52 = f :=
  BitVec.extractLsb'_append_eq_right

end

/-! ### Decoding what the encoder writes -/

/-- The converse of `num_natAbs_mul_of_abs_mul`. -/
theorem abs_mul_of_num_natAbs_mul {q : ℚ} {k n : ℕ} (h : q.num.natAbs * k = n * q.den) :
    |q| * k = n := by
  have hden : (q.den : ℚ) ≠ 0 := by exact_mod_cast q.den_ne_zero
  have h' : (q.num.natAbs : ℚ) * k = n * q.den := by exact_mod_cast h
  rw [Rat.abs_def, Rat.divInt_eq_div, Int.cast_natCast, Int.cast_natCast, div_mul_eq_mul_div, h',
    mul_div_cancel_right₀ _ hden]

/-- An exact value is a whole number of units of `2^-1074`, whose significant bits and exponent
fit. -/
theorem units_of_binary64Exact {q : ℚ} (h : binary64Exact q = true) :
    |q| * (2 ^ 1074 : ℕ) = binary64Units q ∧
      (binary64Units q < 2 ^ 52 ∨ binary64Units q % 2 ^ ((binary64Units q).log2 - 52) = 0 ∧
        (binary64Units q).log2 - 51 < 2047) := by
  simp only [binary64Exact, Bool.and_eq_true, Bool.or_eq_true, beq_iff_eq, decide_eq_true_eq] at h
  exact ⟨abs_mul_of_num_natAbs_mul h.1.symm, h.2⟩

/-- The magnitude at biased exponent `e + 1` is the value with as many units. -/
theorem binary64Magnitude_eq_abs {q : ℚ} {m e n : ℕ} (hq : |q| * (2 ^ 1074 : ℕ) = n)
    (hm : m * 2 ^ e = n) : binary64Magnitude m (e + 1) = |q| := by
  have hpos : (2 ^ 1074 : ℕ) ≠ 0 := pow_ne_zero 1074 two_ne_zero
  refine mul_right_cancel₀ (Nat.cast_ne_zero.mpr hpos) ?_
  rw [binary64Magnitude_succ_mul, hm, hq]

/-- The sign bit the encoder writes. -/
def signBit (q : ℚ) : BitVec 1 := if q.num < 0 then 1 else 0

theorem signed_abs (q : ℚ) : (if (signBit q).getLsbD 0 then -|q| else |q|) = q := by
  by_cases hneg : q.num < 0
  · simp [signBit, hneg, abs_of_neg (Rat.num_neg.mp hneg)]
  · simp [signBit, hneg, abs_of_nonneg (Rat.num_nonneg.mp (not_lt.mp hneg))]

theorem binary64Bits_of_subnormal {q : ℚ} (h : binary64Units q < 2 ^ 52) :
    binary64Bits (.fin q) = signBit q ++ (0 : BitVec 11) ++
      BitVec.ofNat 52 (binary64Units q) := by
  simp only [binary64Bits, signBit, if_pos h]

theorem binary64Bits_of_normal {q : ℚ} (h : ¬ binary64Units q < 2 ^ 52) :
    binary64Bits (.fin q) = signBit q ++
      BitVec.ofNat 11 ((binary64Units q).log2 - 51) ++
      BitVec.ofNat 52 (binary64Units q / 2 ^ ((binary64Units q).log2 - 52) - 2 ^ 52) := by
  simp only [binary64Bits, signBit, if_neg h]

theorem binary64Val_bits_subnormal {q : ℚ} (hq : |q| * (2 ^ 1074 : ℕ) = binary64Units q)
    (h : binary64Units q < 2 ^ 52) : binary64Val (binary64Bits (.fin q)) = .fin q := by
  rw [binary64Bits_of_subnormal h, binary64Val_of_zero (by rw [exponent_of_append]; rfl),
    sign_of_append, fraction_of_append]
  generalize binary64Units q = n at *
  have hfraction : (BitVec.ofNat 52 n).toNat = n := by
    rw [BitVec.toNat_ofNat, Nat.mod_eq_of_lt h]
  have hmag : binary64Magnitude n 1 = |q| :=
    binary64Magnitude_eq_abs (e := 0) hq (by rw [pow_zero, mul_one])
  rw [hfraction, hmag, signed_abs]

/-- The leading 53 bits of a number of at least as many. -/
theorem significand_mem {n : ℕ} (h : 2 ^ 52 ≤ n) :
    2 ^ 52 ≤ n / 2 ^ (n.log2 - 52) ∧ n / 2 ^ (n.log2 - 52) < 2 ^ 53 := by
  have hne : n ≠ 0 := by omega
  have hlog : 52 ≤ n.log2 := (Nat.le_log2 hne).mpr h
  obtain ⟨hlow, hhigh⟩ := (Nat.log2_eq_iff hne).mp rfl
  rw [Nat.le_div_iff_mul_le (Nat.two_pow_pos _), Nat.div_lt_iff_lt_mul (Nat.two_pow_pos _),
    ← pow_add, ← pow_add, show 52 + (n.log2 - 52) = n.log2 by omega,
    show 53 + (n.log2 - 52) = n.log2 + 1 by omega]
  exact ⟨hlow, hhigh⟩

theorem binary64Val_bits_normal {q : ℚ} (hq : |q| * (2 ^ 1074 : ℕ) = binary64Units q)
    (h : ¬ binary64Units q < 2 ^ 52)
    (hbits : binary64Units q % 2 ^ ((binary64Units q).log2 - 52) = 0)
    (hexp : (binary64Units q).log2 - 51 < 2047) :
    binary64Val (binary64Bits (.fin q)) = .fin q := by
  rw [binary64Bits_of_normal h]
  generalize binary64Units q = n at *
  have hlog : 52 ≤ n.log2 := (Nat.le_log2 (by omega)).mpr (not_lt.mp h)
  obtain ⟨hlow, hhigh⟩ := significand_mem (not_lt.mp h)
  have hexponent : (BitVec.ofNat 11 (n.log2 - 51)).toNat = n.log2 - 52 + 1 := by
    rw [BitVec.toNat_ofNat, Nat.mod_eq_of_lt (by omega)]; omega
  have hfraction : 2 ^ 52 + (BitVec.ofNat 52 (n / 2 ^ (n.log2 - 52) - 2 ^ 52)).toNat =
      n / 2 ^ (n.log2 - 52) := by
    rw [BitVec.toNat_ofNat, Nat.mod_eq_of_lt (by omega)]; omega
  have hmag : binary64Magnitude (n / 2 ^ (n.log2 - 52)) (n.log2 - 52 + 1) = |q| :=
    binary64Magnitude_eq_abs hq (Nat.div_mul_cancel (Nat.dvd_of_mod_eq_zero hbits))
  rw [binary64Val_of_normal (by rw [exponent_of_append]; omega)
    (by rw [exponent_of_append]; omega), sign_of_append, exponent_of_append, fraction_of_append,
    hexponent, hfraction, hmag, signed_abs]

/-- The bits written for a value the port carries spell that value. -/
theorem binary64Val_bits {x : CoordNum} (h : x.representable = true) :
    binary64Val (binary64Bits x) = x := by
  cases x with
  | nonfinite => rfl
  | fin q =>
    obtain ⟨hq, hfits⟩ := units_of_binary64Exact h
    by_cases hsub : binary64Units q < 2 ^ 52
    · exact binary64Val_bits_subnormal hq hsub
    · obtain ⟨hbits, hexp⟩ := hfits.resolve_left hsub
      exact binary64Val_bits_normal hq hsub hbits hexp

theorem coordVal_bits {x : CoordNum} (h : x.representable = true) :
    coordVal .binary64 (binary64Bits x).toNat = x :=
  (Machine.coordVal_toNat .binary64 _).trans (binary64Val_bits h)

/-- Settles O10: the header names the operation, and the bits of a coordinate spell it. -/
theorem encodedOperationDecodesBack : Obligations.EncodedOperationDecodesBack := by
  unfold Obligations.EncodedOperationDecodesBack
  intro i h
  cases i with
  | encode lat lon hyph =>
    obtain ⟨hlat, hlon⟩ : lat.representable = true ∧ lon.representable = true := by
      simpa [Instr.wellFormed] using h
    rw [(Laws.EncodedHeader.encode lat lon hyph).2 .binary64]
    simp only [encode, coordVal_bits hlat, coordVal_bits hlon]
  | decode code => exact (Laws.EncodedHeader.decode code).2 .binary64
  | isvalid code => exact (Laws.EncodedHeader.isvalid code).2 .binary64

/-! ### The value of any bits -/

theorem mkRat_two_pow (m e k : ℕ) :
    mkRat (m * 2 ^ e : ℕ) (2 ^ k) = m * 2 ^ ((e : ℤ) - k) := by
  rw [Rat.mkRat_eq_div, zpow_sub₀ two_ne_zero, zpow_natCast, zpow_natCast, ← mul_div_assoc]
  push_cast
  rfl

theorem binary64Magnitude_eq_zpow (m e : ℕ) :
    binary64Magnitude m e = m * 2 ^ ((e : ℤ) - 1075) := by
  have h : mkRat (m * 2 ^ e : ℕ) (2 ^ 1075) = m * 2 ^ ((e : ℤ) - (1075 : ℕ)) :=
    mkRat_two_pow m e 1075
  rw [binary64Magnitude, h, Nat.cast_ofNat]

/-- The sign bit as the factor of R58. -/
theorem signed_eq_pow_mul (bits : BitVec 64) (a : ℚ) :
    (if bits.getLsbD 63 then -a else a) = (-1) ^ (bits.extractLsb' 63 1).toNat * a := by
  have hbit : (bits.extractLsb' 63 1).toNat = (bits.getLsbD 63).toNat := by
    rw [BitVec.extractLsb'_toNat, BitVec.getLsbD, Nat.toNat_testBit, Nat.shiftRight_eq_div_pow]
  rw [hbit]
  cases bits.getLsbD 63 <;> simp

/-- Settles O9: the three lines of R58 are the three cases of the exponent. -/
theorem portBitsValue : Obligations.PortBitsValue := by
  unfold Obligations.PortBitsValue
  refine ⟨fun bits => ?_, by decide +kernel, by decide +kernel,
    fun width => Machine.coordVal_toNat (.platform width), fun c s => ⟨rfl, rfl⟩, rfl, rfl⟩
  have hport : coordVal .binary64 bits.toNat = binary64Val bits :=
    Machine.coordVal_toNat .binary64 bits
  rw [hport]
  refine ⟨binary64Val_of_max, fun he => ?_, fun h0 hmax => ?_⟩
  · rw [binary64Val_of_zero he, signed_eq_pow_mul, binary64Magnitude_eq_zpow, mul_assoc]
    rfl
  · rw [binary64Val_of_normal h0 hmax, signed_eq_pow_mul, binary64Magnitude_eq_zpow, mul_assoc]
    push_cast
    rfl

end Sys2Proof
end

section
/-! Headers, and what the operations of a command read (30_encoding R54, R61, R65). -/

namespace Sys2Proof.Machine

open Sys2Proof Sys2Proof.Claims

/-! ### The decoder by the operation code -/

section
variable (fmt : CoordFormat) {c : Command}

theorem decode_of_op_encode (h : c.op = opEncode) :
    decode fmt c = .ok (.encode (coordVal fmt c.lat) (coordVal fmt c.lon) c.hyph) := if_pos h

theorem decode_of_op_decode (h : c.op = opDecode) : decode fmt c = .ok (.decode c.codeIn) := by
  simp [decode, decodeFields, h, opEncode, opDecode]

theorem decode_of_op_isValid (h : c.op = opIsValid) : decode fmt c = .ok (.isvalid c.codeIn) := by
  simp [decode, decodeFields, h, opEncode, opDecode, opIsValid]

theorem decode_error_iff (c : Command) : decode fmt c = .error .reservedOp ↔ c.op = 3 :=
  decodeLatches_error_iff
    ⟨c.op, c.hyph, coordVal fmt c.lat, coordVal fmt c.lon, c.codeIn⟩

end

/-- Settles O7: each header has one of the four operation codes, and `HYPH` in its third bit. -/
theorem headerPatternsName : Obligations.HeaderPatternsName := by
  unfold Obligations.HeaderPatternsName
  intro fmt c
  have hhyph (b : Bool) (h : c.hyph = b) (hop : c.op = opEncode) :
      decode fmt c = .ok (.encode (coordVal fmt c.lat) (coordVal fmt c.lon) b) :=
    h ▸ decode_of_op_encode fmt hop
  refine ⟨fun h => ?_, fun h => ?_, fun h => ?_, fun h => ?_, fun h => ?_⟩
  · exact hhyph false (by rw [Command.hyph, h]; rfl) (by rw [Command.op, h]; rfl)
  · exact hhyph true (by rw [Command.hyph, h]; rfl) (by rw [Command.op, h]; rfl)
  · exact decode_of_op_decode fmt (by rcases h with h | h <;> rw [Command.op, h] <;> rfl)
  · exact decode_of_op_isValid fmt (by rcases h with h | h <;> rw [Command.op, h] <;> rfl)
  · exact (decode_error_iff fmt c).mpr (by rcases h with h | h <;> rw [Command.op, h] <;> rfl)

theorem header_of_op_three (h : BitVec 3) : h.extractLsb' 0 2 = 3 ↔ h = 3 ∨ h = 7 := by
  revert h; decide

theorem step_of_busy_reserved {s : State} (hpin : s.host.resetPin = false) (hrun : s.run = .busy)
    (hop : s.latch.op = 3) : step s = .refused .reservedOperation := by
  simp [step, hpin, hrun, (decodeLatches_error_iff s.latch).mpr hop]

/-- Settles O6: the decoder refuses the operation code 3 alone, and the step what it refuses. -/
theorem reservedOperationRefused : Obligations.ReservedOperationRefused := by
  unfold Obligations.ReservedOperationRefused
  exact ⟨fun fmt c => (decode_error_iff fmt c).trans (header_of_op_three c.header),
    fun s => step_of_busy_reserved⟩

/-- Settles O8: the headers name the operations, and R58 gives the four coordinates. -/
theorem writtenCommandsDecode : Obligations.WrittenCommandsDecode := by
  unfold Obligations.WrittenCommandsDecode
  have hlat : coordVal .binary64 0x4004000000000000 = .fin (5 / 2) := by decide +kernel
  have hlon : coordVal .binary64 0x404FC00000000000 = .fin (127 / 2) := by decide +kernel
  have hnan : coordVal .binary64 0x7FF8000000000000 = .nonfinite := by decide +kernel
  have hzero : coordVal .binary64 0x8000000000000000 = .fin 0 := by decide +kernel
  refine ⟨?_, ?_, rfl, rfl⟩
  · rw [decode_of_op_encode .binary64 rfl, hlat, hlon]
    rfl
  · rw [decode_of_op_encode .binary64 rfl, hnan, hzero]
    rfl

/-! ### A run stops only on a reserved operation -/

/-- A step answers, or is refused on the reserved code. -/
theorem step_total (s : State) : (∃ t, step s = .next t) ∨
    (step s = .refused .reservedOperation ∧ s.run = .busy ∧ s.latch.op = 3) := by
  cases hpin : s.host.resetPin with
  | true => exact .inl ⟨assertReset s, by simp [step, hpin]⟩
  | false =>
    cases hrun : s.run with
    | idle =>
      cases hc : s.host.commands with
      | nil => exact .inl ⟨s, by simp [step, hpin, hrun, hc]⟩
      | cons c rest => exact .inl ⟨_, step_of_idle_cons hpin hrun hc⟩
    | busy =>
      by_cases hop : s.latch.op = 3
      · exact .inr ⟨step_of_busy_reserved hpin hrun hop, rfl, hop⟩
      · obtain ⟨i, hi⟩ := decodeLatches_of_op_ne hop
        obtain ⟨t, ht, -⟩ := exec_next i s
        exact .inl ⟨t, (step_of_busy hpin hrun hi).trans ht⟩
    | done =>
      cases htakes : s.host.takes with
      | true => exact .inl ⟨_, step_of_done_takes hpin hrun htakes⟩
      | false => exact .inl ⟨s, step_of_done_keeps hpin hrun htakes⟩

/-- No reserved command waits or is in flight. -/
def Unreserved (s : State) : Prop :=
  (∀ c ∈ s.host.commands, c.op ≠ 3) ∧ (s.run = .busy → s.latch.op ≠ 3)

theorem Unreserved.step {s t : State} (h : Unreserved s) (hstep : step s = .next t) :
    Unreserved t := by
  obtain ⟨hqueue, hflight⟩ := h
  rcases step_cases hstep with ⟨-, rfl⟩ | ⟨-, ⟨-, -, rfl⟩ | ⟨c, rest, -, hc, rfl⟩ |
    ⟨i, -, -, hx⟩ | ⟨-, -, rfl⟩ | ⟨-, -, rfl⟩⟩
  · exact ⟨hqueue, nofun⟩
  · exact ⟨hqueue, hflight⟩
  · rw [hc] at hqueue
    exact ⟨fun d hd => hqueue d (List.mem_cons_of_mem c hd), fun _ => hqueue c List.mem_cons_self⟩
  · obtain ⟨u, hu, hdone, -, -, hhost⟩ := exec_next i s
    cases hx.symm.trans hu
    exact ⟨hhost ▸ hqueue, by simp [hdone]⟩
  · exact ⟨hqueue, nofun⟩
  · exact ⟨hqueue, hflight⟩

/-- Settles O54, by induction on the steps: a step from an unreserved state answers one. -/
theorem unreservedRunsNeverStop : Obligations.UnreservedRunsNeverStop := by
  unfold Obligations.UnreservedRunsNeverStop
  refine ⟨step_total, fun n s hqueue hflight => ?_⟩
  have hs : Unreserved s := ⟨hqueue, hflight⟩
  clear hqueue hflight
  induction n generalizing s with
  | zero => exact ⟨s, run_zero s⟩
  | succ n ih =>
    rcases step_total s with ⟨t, ht⟩ | ⟨-, hbusy, hop⟩
    · obtain ⟨u, hu⟩ := ih t (hs.step ht)
      exact ⟨u, (run_succ_of_step n ht).trans hu⟩
    · exact absurd hop (hs.2 hbusy)

/-! ### No operation reads the latches -/

/-- The unit with other latches. -/
def withLatch (l : Latches) (s : State) : State := { s with latch := l }

@[simp] theorem withLatch_cfg (l : Latches) (s : State) : (withLatch l s).cfg = s.cfg := rfl
@[simp] theorem withLatch_op (l : Latches) (s : State) : (withLatch l s).latch.op = l.op := rfl

theorem startEncode_withLatch (l : Latches) (s : State) :
    startEncode (withLatch l s) = withLatch l (startEncode s) := rfl

theorem writeCanon_withLatch (code : List Ch) (l : Latches) (s : State) :
    writeCanon code (withLatch l s) = withLatch l (writeCanon code s) := rfl

theorem respondOk_withLatch (l : Latches) (s : State) :
    respondOk (withLatch l s) = withLatch l (respondOk s) := rfl

theorem encodeLevels_withLatch (lat lon : ℚ) (hyph : Bool) (n : ℕ) (l : Latches) (s : State) :
    encodeLevels lat lon hyph n (withLatch l s) =
      withLatch l (encodeLevels lat lon hyph n s) := by
  induction n generalizing s with
  | zero => rfl
  | succ n ih => exact ih (encodeLevel lat lon hyph s)

theorem decodeLevels_withLatch (symbols : List Ch) (l : Latches) (s : State) :
    decodeLevels symbols (withLatch l s) =
      match decodeLevels symbols s with
      | .ok t => .ok (withLatch l t)
      | .error (ch, t) => .error (ch, withLatch l t) := by
  induction symbols generalizing s with
  | nil => rfl
  | cons ch rest ih =>
    simp only [decodeLevels, withLatch_cfg]
    cases inv s.cfg.grid ch with
    | none => rfl
    | some cell => exact ih (decodeLevel cell.1 cell.2 s)

theorem decodeSymbols_withLatch (l : Latches) (s : State) :
    decodeSymbols (withLatch l s) = withLatch l (decodeSymbols s) := by
  have hlevels : decodeLevels (withLatch l s).work.canon (startDecode (withLatch l s)) = _ :=
    decodeLevels_withLatch s.work.canon l (startDecode s)
  unfold decodeSymbols
  rw [hlevels]
  cases decodeLevels s.work.canon (startDecode s) with
  | ok t => rfl
  | error p => rfl

/-- An operation does the same whatever stands in the latches: its operands are its own. -/
theorem exec_withLatch {i : Instr} {s t : State} (l : Latches) (h : exec i s = .next t) :
    exec i (withLatch l s) = .next (withLatch l t) := by
  cases i with
  | encode lat lon hyph =>
    cases hc : checkCoordinates lat lon with
    | error b => simp only [exec, execEncode, hc] at h ⊢; cases h; rfl
    | ok p =>
      obtain ⟨a, b⟩ := p
      simp only [exec, execEncode, hc, Host.Outcome.next.injEq] at h ⊢
      rw [← h, startEncode_withLatch, encodeLevels_withLatch, respondOk_withLatch]
  | decode code =>
    by_cases hlen : (strip code).length = CODE_SYMS
    · simp only [exec, execDecode_of_length hlen] at h ⊢
      cases h
      rw [writeCanon_withLatch, decodeSymbols_withLatch]
    · simp only [exec, execDecode_of_length_ne hlen] at h ⊢
      cases h; rfl
  | isvalid code => cases h; rfl

/-- The latches show in the response through the operation code alone. -/
theorem response_withLatch {l : Latches} {s : State} (h : l.op = s.latch.op) :
    response (withLatch l s) = response s := by
  simp only [response, resultFields, withLatch, h]

/-- Commands that name the same operation have the same response. -/
theorem responseTo_congr {cfg : Config} {c d : Command} (hop : c.op = d.op) (hne : c.op ≠ 3)
    (h : decode cfg.coordFormat c = decode cfg.coordFormat d) :
    responseTo cfg c = responseTo cfg d := by
  obtain ⟨i, hi⟩ := decodeLatches_of_op_ne (l := (accept c { State.reset with cfg := cfg }).latch)
    hne
  obtain ⟨t, ht, -, -, hlatch, -⟩ := exec_next i (accept c { State.reset with cfg := cfg })
  rw [responseTo_of_exec hi ht, responseTo_of_exec (h.symm.trans hi)
    (exec_withLatch (accept d { State.reset with cfg := cfg }).latch ht)]
  exact (response_withLatch (by simp [hlatch, hop])).symm

/-- Commands that agree in the fields their operation uses name the same operation (30_encoding
R65). -/
theorem decode_congr_of_used_fields (fmt : CoordFormat) {c d : Command} (hop : c.op = d.op)
    (hfields : (c.op = opEncode ∧ c.header = d.header ∧ c.lat = d.lat ∧ c.lon = d.lon) ∨
      ((c.op = opDecode ∨ c.op = opIsValid) ∧ c.codeIn = d.codeIn)) :
    decode fmt c = decode fmt d := by
  rcases hfields with ⟨hc, hheader, hlat, hlon⟩ | ⟨hc | hc, hcode⟩
  · rw [decode_of_op_encode fmt hc, decode_of_op_encode fmt (hop.symm.trans hc)]
    simp only [Command.hyph, hheader, hlat, hlon]
  · rw [decode_of_op_decode fmt hc, decode_of_op_decode fmt (hop.symm.trans hc), hcode]
  · rw [decode_of_op_isValid fmt hc, decode_of_op_isValid fmt (hop.symm.trans hc), hcode]

/-- Settles O12: both commands name the same operation, on whose operands its response depends. -/
theorem unusedOperandsIgnored : Obligations.UnusedOperandsIgnored := by
  unfold Obligations.UnusedOperandsIgnored
  intro s c d hs hop hfields
  have hne : c.op ≠ 3 := by
    rcases hfields with ⟨hc, -⟩ | ⟨hc | hc, -⟩ <;> simp [Command.op, hc]
  have hdecode := decode_congr_of_used_fields s.cfg.coordFormat hop hfields
  obtain ⟨t, ht, -, -, -, hresp, hsome⟩ := run_two_of_waiting (s := presenting c s) hs rfl hne
  obtain ⟨u, hu, -, -, -, hresp', -⟩ :=
    run_two_of_waiting (s := presenting d s) hs rfl (hop.symm.trans_ne hne)
  refine ⟨t, u, ht, hu, ?_, hsome⟩
  rw [hresp, hresp']
  exact responseTo_congr hop hne hdecode

end Sys2Proof.Machine
end

section
/-! The canonical form of a code, and the Symbol Grid with its inverse (30_encoding R47, R48,
R52). -/

namespace Sys2Proof.Machine

open Sys2Proof

/-! ### The canonical form (30_encoding R52) -/

theorem strip_eq_filter (s : List Ch) : strip s = s.filter fun c => decide (c ≠ SEP) := by
  induction s with
  | nil => rfl
  | cons c s ih =>
    by_cases h : c = SEP
    · subst h; simp [ih]
    · rw [strip_cons_of_ne h, ih, List.filter_cons_of_pos (by simpa using h)]

@[simp] theorem writeCanon_strip (code : List Ch) (s : State) :
    writeCanon (strip code) s = writeCanon code s := by
  simp [writeCanon]

/-- DECODE reads the canonical form of its operand only. -/
theorem execDecode_strip (code : List Ch) (s : State) :
    execDecode (strip code) s = execDecode code s := by
  simp only [execDecode, writeCanon_strip]

/-- ISVALID reads the canonical form of its operand only. -/
theorem execIsValid_strip (code : List Ch) (s : State) :
    execIsValid (strip code) s = execIsValid code s := by
  simp only [execIsValid, writeCanon_strip]

theorem execDecode_canon (code : List Ch) (s : State) :
    ∃ t, execDecode code s = .next t ∧ t.work.canon = strip code := by
  by_cases hlen : (strip code).length = CODE_SYMS
  · exact ⟨_, execDecode_of_length hlen, by simp⟩
  · exact ⟨_, execDecode_of_length_ne hlen, rfl⟩

/-- Settles O15: both operations work on what `writeCanon` writes, and `strip` is idempotent. -/
theorem stripMakesTheCanonicalForm : Obligations.StripMakesTheCanonicalForm := by
  unfold Obligations.StripMakesTheCanonicalForm
  refine ⟨rfl, fun c s h => h ▸ strip_cons_sep s, fun c s h => strip_cons_of_ne h s,
    strip_eq_filter, fun code s => ?_⟩
  obtain ⟨t, ht, hcanon⟩ := execDecode_canon code s
  exact ⟨t, _, ht, rfl, hcanon, rfl, (execDecode_strip code s).trans ht,
    execIsValid_strip code s⟩

/-! ### The Symbol Grid (30_encoding R47) -/

theorem digitValue_injective {r c r' c' : Digit} (h : digitValue r c = digitValue r' c') :
    r = r' ∧ c = c' := by
  unfold digitValue at h
  constructor <;> ext <;> omega

/-- Every index of the grid is a cell's. -/
theorem exists_digitValue_eq {i : ℕ} (h : i < 16) : ∃ r c : Digit, digitValue r c = i :=
  ⟨⟨i / 4, by omega⟩, ⟨i % 4, by omega⟩, by simp [digitValue]; omega⟩

theorem mem_grid_iff {g : SymbolGrid} {ch : Ch} : ch ∈ g.toList ↔ ∃ r c, gridAt g r c = ch := by
  simp only [Vector.mem_toList_iff, Vector.mem_iff_getElem]
  constructor
  · rintro ⟨i, hi, rfl⟩
    obtain ⟨r, c, rfl⟩ := exists_digitValue_eq hi
    exact ⟨r, c, rfl⟩
  · rintro ⟨r, c, rfl⟩
    exact ⟨digitValue r c, digitValue_lt r c, rfl⟩

theorem forall_mem_grid {g : SymbolGrid} {P : Ch → Prop} :
    (∀ ch ∈ g.toList, P ch) ↔ ∀ r c, P (gridAt g r c) := by
  simp only [mem_grid_iff]
  exact ⟨fun h r c => h _ ⟨r, c, rfl⟩, fun h ch ⟨r, c, hcell⟩ => hcell ▸ h r c⟩

/-- The characters are pairwise distinct exactly when distinct cells hold distinct ones. -/
theorem grid_nodup_iff {g : SymbolGrid} : g.toList.Nodup ↔
    ∀ r c r' c' : Digit, gridAt g r c = gridAt g r' c' → r = r' ∧ c = c' := by
  rw [List.nodup_iff_injective_getElem]
  constructor
  · intro hinj r c r' c' h
    have hindex := @hinj ⟨digitValue r c, by simpa using digitValue_lt r c⟩
      ⟨digitValue r' c', by simpa using digitValue_lt r' c'⟩ (by simpa [gridAt] using h)
    exact digitValue_injective (congrArg Fin.val hindex)
  · rintro hcells ⟨i, hi⟩ ⟨j, hj⟩ h
    obtain ⟨r, c, rfl⟩ := exists_digitValue_eq (i := i) (by simpa using hi)
    obtain ⟨r', c', rfl⟩ := exists_digitValue_eq (i := j) (by simpa using hj)
    obtain ⟨rfl, rfl⟩ := hcells r c r' c' (by simpa [gridAt] using h)
    rfl

theorem alphanumeric_iff {ch : Ch} : alphanumeric ch = true ↔
    (0x30 ≤ ch.toNat ∧ ch.toNat ≤ 0x39) ∨ (0x41 ≤ ch.toNat ∧ ch.toNat ≤ 0x5A) ∨
      (0x61 ≤ ch.toNat ∧ ch.toNat ≤ 0x7A) := by
  simp [alphanumeric, BitVec.le_def, or_assoc]

/-- Settles O16: `gridAdmissible` says of the list of characters what R47 says of the cells. -/
theorem admissibleGridConditions : Obligations.AdmissibleGridConditions := by
  unfold Obligations.AdmissibleGridConditions
  refine ⟨fun g => ?_, gDefault_admissible⟩
  simp only [gridAdmissible, Bool.and_eq_true, decide_eq_true_eq, List.all_eq_true, bne_iff_ne,
    forall_mem_grid, grid_nodup_iff, alphanumeric_iff, forall_and, and_assoc]
  rfl

/-! ### The inverse table (30_encoding R48) -/

section
variable {g : SymbolGrid}

theorem gridAt_injective (hg : gridAdmissible g = true) {r c r' c' : Digit}
    (h : gridAt g r c = gridAt g r' c') : r = r' ∧ c = c' :=
  ((admissibleGridConditions.1 g).mp hg).1 r c r' c' h

theorem inv_none_of_forall {ch : Ch} (h : ∀ r c, gridAt g r c ≠ ch) : inv g ch = none := by
  rcases inv_cases g ch with ⟨r, c, -, hcell⟩ | ⟨hnone, -⟩
  · exact absurd hcell (h r c)
  · exact hnone

theorem inv_eq_some_iff (hg : gridAdmissible g = true) {ch : Ch} {r c : Digit} :
    inv g ch = some (r, c) ↔ gridAt g r c = ch := by
  rcases inv_cases g ch with ⟨r', c', hsome, hcell⟩ | ⟨hnone, hmiss⟩
  · rw [hsome, Option.some.injEq, Prod.mk.injEq, ← hcell]
    constructor
    · rintro ⟨rfl, rfl⟩; rfl
    · intro h
      obtain ⟨rfl, rfl⟩ := gridAt_injective hg h
      exact ⟨rfl, rfl⟩
  · simp [hnone, hmiss r c]

/-- What is no letter or digit, or is `'A'`, stands in no cell. -/
theorem inv_none_of_excluded (hg : gridAdmissible g = true) {ch : Ch}
    (h : ch = 0x41 ∨ alphanumeric ch = false) : inv g ch = none := by
  refine inv_none_of_forall fun r c hcell => ?_
  obtain ⟨-, -, hA, hrange⟩ := (admissibleGridConditions.1 g).mp hg
  rcases h with rfl | h
  · exact hA r c hcell
  · have halnum : alphanumeric ch = true := hcell ▸ alphanumeric_iff.mpr (hrange r c)
    simp [h] at halnum

/-- The character of a cell as a number below 256. -/
def cellNumber (g : SymbolGrid) (cell : Digit × Digit) : Fin 256 :=
  (gridAt g cell.1 cell.2).toFin

theorem cellNumber_injective (hg : gridAdmissible g = true) :
    Function.Injective (cellNumber g) := by
  rintro ⟨r, c⟩ ⟨r', c'⟩ h
  obtain ⟨rfl, rfl⟩ := gridAt_injective hg (BitVec.eq_of_toFin_eq h)
  rfl

theorem inv_ne_none_iff_mem_image (hg : gridAdmissible g = true) (n : Fin 256) :
    inv g (BitVec.ofFin n) ≠ none ↔ n ∈ Finset.univ.image (cellNumber g) := by
  simp only [Option.ne_none_iff_exists', Prod.exists, inv_eq_some_iff hg, Finset.mem_image,
    Finset.mem_univ, true_and]
  constructor
  · rintro ⟨r, c, h⟩; exact ⟨r, c, congrArg BitVec.toFin h⟩
  · rintro ⟨r, c, rfl⟩; exact ⟨r, c, rfl⟩

/-- The table hits the 16 numbers of its cells, and misses the rest. -/
theorem card_inv_none (hg : gridAdmissible g = true) :
    (Finset.univ.filter fun n : Fin 256 => inv g (BitVec.ofFin n) = none).card = 240 := by
  have hhits : (Finset.univ.filter fun n : Fin 256 => ¬ inv g (BitVec.ofFin n) = none) =
      Finset.univ.image (cellNumber g) := by
    ext n
    simpa using inv_ne_none_iff_mem_image hg n
  have hcard : (Finset.univ.image (cellNumber g)).card = 16 :=
    Finset.card_image_of_injective _ (cellNumber_injective hg)
  have hsplit := Finset.card_filter_add_card_filter_not (s := (Finset.univ : Finset (Fin 256)))
    (fun n => inv g (BitVec.ofFin n) = none)
  rw [hhits, hcard, Finset.card_univ, Fintype.card_fin] at hsplit
  omega

end

/-- Settles O17: the table finds the one cell that holds a character. -/
theorem inverseTableOfGrid : Obligations.InverseTableOfGrid := by
  unfold Obligations.InverseTableOfGrid
  intro g hg
  exact ⟨fun ch r c => inv_eq_some_iff hg, fun r c => (inv_eq_some_iff hg).mpr rfl,
    card_inv_none hg, inv_none_of_excluded hg (.inr (by decide)),
    inv_none_of_excluded hg (.inl rfl), inv_none_of_excluded hg (.inr (by decide)),
    inv_none_of_excluded hg (.inr (by decide)), fun ch => inv_none_of_forall⟩

end Sys2Proof.Machine
end

section
/-! The results of an operation and its response: renderings, the code, the fields by `STATUS`
(30_encoding R46, R50, R55, R57, R59). -/

namespace Sys2Proof.Machine

open Sys2Proof Sys2Proof.Claims

/-! ### The rendering of a coordinate (30_encoding R59) -/

theorem decimalDigits_of_lt_ten (fuel : ℕ) {n : ℕ} (h : n < 10) :
    decimalDigits (fuel + 1) n = [asciiDigit n] := if_pos h

theorem decimalDigits_of_lt_hundred (fuel : ℕ) {n : ℕ} (h : 10 ≤ n) (h' : n < 100) :
    decimalDigits (fuel + 2) n = [asciiDigit (n / 10), asciiDigit (n % 10)] := by
  rw [decimalDigits, if_neg (by omega), decimalDigits_of_lt_ten fuel (by omega)]
  rfl

/-- Digits below a cut do not see what the cut takes off. -/
theorem fixedDigits_mod (k n : ℕ) : fixedDigits k (n % 10 ^ k) = fixedDigits k n := by
  induction k generalizing n with
  | zero => rfl
  | succ k ih =>
    have hdiv : n % 10 ^ (k + 1) / 10 = n / 10 % 10 ^ k := by
      rw [pow_succ', Nat.mod_mul_right_div_self]
    have hmod : n % 10 ^ (k + 1) % 10 = n % 10 :=
      Nat.mod_mod_of_dvd n (dvd_pow_self 10 (Nat.succ_ne_zero k))
    rw [fixedDigits, hdiv, hmod, ih, fixedDigits]

theorem fixedDigits_six (n : ℕ) : fixedDigits 6 n =
    [asciiDigit (n / 100000 % 10), asciiDigit (n / 10000 % 10), asciiDigit (n / 1000 % 10),
      asciiDigit (n / 100 % 10), asciiDigit (n / 10 % 10), asciiDigit (n % 10)] := by
  simp only [fixedDigits, Nat.div_div_eq_div_mul, List.nil_append, List.cons_append, Nat.reduceMul]

/-- Settles O19: the integer part has one digit or two, and the fraction keeps its six. -/
theorem renderedDigits : Obligations.RenderedDigits := by
  unfold Obligations.RenderedDigits
  refine ⟨fun n hn => ?_, by decide +kernel, by decide +kernel⟩
  rw [render6, fixedDigits_mod, fixedDigits_six, show (10 : ℕ) ^ 6 = 1000000 by norm_num]
  by_cases hone : n / 1000000 < 10
  · rw [if_pos hone, decimalDigits_of_lt_ten 2 hone]
    rfl
  · rw [if_neg hone, decimalDigits_of_lt_hundred 1 (by omega) (by omega),
      Nat.div_div_eq_div_mul]
    rfl

/-! ### ENCODE (30_encoding R46, R50) -/

theorem checkCoordinates_of_accepted {lat lon : ℚ} (h : Accepted lat lon) :
    checkCoordinates (.fin lat) (.fin lon) = .ok (lat, lon) :=
  checkCoordinates_ok_iff.mpr ⟨rfl, rfl, h⟩

/-- ENCODE of an accepted coordinate performs its ten levels. -/
theorem execEncode_of_accepted {lat lon : ℚ} (h : Accepted lat lon) (hyph : Bool) (s : State) :
    execEncode (.fin lat) (.fin lon) hyph s =
      .next (respondOk (encodeLevels lat lon hyph LEVELS (startEncode s))) := by
  simp only [execEncode, checkCoordinates_of_accepted h]

/-- Settles O22: it is what the ten levels leave in `CODE_OUT`. -/
theorem codeSpellsTheGridIndex : Obligations.CodeSpellsTheGridIndex := by
  unfold Obligations.CodeSpellsTheGridIndex
  intro s lat lon hyph h
  exact ⟨_, execEncode_of_accepted h hyph s, encodeLevels_codeOut_ten lat lon hyph s⟩

/-! ### The response by operation and `STATUS` (30_encoding R55, R57) -/

theorem response_of_ne_done {s : State} (h : s.run ≠ .done) : response s = none := by
  unfold response
  cases hrun : s.run with
  | idle => rfl
  | busy => rfl
  | done => exact absurd hrun h

/-- Settles O5: the view of the registers, clause by clause. -/
theorem responseFieldsByOperation : Obligations.ResponseFieldsByOperation := by
  unfold Obligations.ResponseFieldsByOperation
  intro s
  refine ⟨response_of_ne_done, response_of_error, fun hrun hst hop => ?_,
    fun hrun hst hop => ?_, fun hrun hst hop => ?_⟩
  · rw [response_of_ok hrun hst, resultFields_of_encode hop, Option.map_some]
  · rw [response_of_ok hrun hst, resultFields_of_decode hop, Option.map_some]
  · rw [response_of_ok hrun hst, resultFields_of_isValid hop, Option.map_some]

/-- A bound code fills the low three bits of `ERRINFO`. -/
theorem Bound.info_fields (b : Bound) :
    (ErrorKind.outOfRange b).info.extractLsb' 3 5 = 0 ∧
      (ErrorKind.outOfRange b).info.extractLsb' 0 3 = b.code := by
  cases b <;> decide

/-- Settles O18: the two ends of an operation write these fields; each bound has its code. -/
theorem errorInfoByStatus : Obligations.ErrorInfoByStatus := by
  unfold Obligations.ErrorInfoByStatus
  refine ⟨fun s => ⟨rfl, rfl⟩, fun s => ⟨rfl, rfl⟩, fun s ch => ⟨rfl, rfl⟩, fun s b => ?_⟩
  obtain ⟨hhigh, hlow⟩ := b.info_fields
  exact ⟨rfl, hhigh, hlow.trans (by cases b <;> rfl)⟩

end Sys2Proof.Machine
end

section
/-! ENCODE (40_encode): its two ends with their frame, the range checks, and the digits that the
levels write. -/

namespace Sys2Proof.Machine

open Sys2Proof Sys2Proof.Claims

/-! ### The two ends of an ENCODE (40_encode R71, R78, R79) -/

section
variable {lat lon : CoordNum} (hyph : Bool) (s : State)

theorem execEncode_of_check_error {b : Bound} (h : checkCoordinates lat lon = .error b) :
    execEncode lat lon hyph s = .next (raiseError (.outOfRange b) s) := by
  simp only [execEncode, h]

theorem execEncode_of_check_ok {a b : ℚ} (h : checkCoordinates lat lon = .ok (a, b)) :
    execEncode lat lon hyph s =
      .next (respondOk (encodeLevels a b hyph LEVELS (startEncode s))) := by
  simp only [execEncode, h]

end

theorem encodeFrame_raiseError (e : ErrorKind) (s : State) : EncodeFrame s (raiseError e s) :=
  ⟨rfl, rfl, rfl, rfl, rfl, rfl, rfl, rfl, rfl, rfl, rfl⟩

theorem encodeFrame_encodeLevels (lat lon : ℚ) (hyph : Bool) (n : ℕ) (s : State) :
    EncodeFrame s (respondOk (encodeLevels lat lon hyph n (startEncode s))) := by
  rw [encodeLevels_frame]
  exact ⟨rfl, rfl, rfl, rfl, rfl, rfl, rfl, rfl, rfl, rfl, rfl⟩

theorem rendered_length (hyph : Bool) {l : List Ch} (h : l.length = 10) :
    (rendered hyph l).length = if hyph then 12 else 10 := by
  cases hyph <;> simp [rendered, h]

theorem symbolsOf_length (g : SymbolGrid) (x : GridIndex) : (symbolsOf g x).length = 10 := by
  simp [symbolsOf, CODE_SYMS]

theorem encodeLevels_codeOut_length (lat lon : ℚ) (hyph : Bool) (s : State) :
    (encodeLevels lat lon hyph LEVELS (startEncode s)).work.codeOut.length =
      if hyph then 12 else 10 := by
  rw [encodeLevels_codeOut_ten, rendered_length hyph (symbolsOf_length _ _)]

theorem codeOutLen_of_length {codeOut : List Ch} (gidx : GridIndex) (hyph : Bool)
    (h : codeOut.length = if hyph then 12 else 10) :
    (Result.encoded codeOut gidx).codeOutLen = some (if hyph then 12 else 10) := by
  cases hyph <;> simp [Result.codeOutLen, h]

/-- Settles O21: the ten levels leave the code, `LEVEL` and the frame, and the end reports them. -/
theorem encodeCompletes : Obligations.EncodeCompletes := by
  unfold Obligations.EncodeCompletes
  intro s lat lon hyph h
  have hlength := encodeLevels_codeOut_length lat lon hyph s
  refine ⟨_, execEncode_of_accepted h hyph s, rfl, rfl, rfl, encodeLevels_level_ten lat lon hyph s,
    hlength, codeOutLen_of_length _ hyph hlength, fun hop => ?_,
    encodeFrame_encodeLevels lat lon hyph LEVELS s⟩
  rw [response_respondOk, resultFields_of_encode (by simpa [opEncode] using hop)]
  rfl

/-- Settles O20: each clause is one branch of `checkCoordinates`. -/
theorem encodeRangeChecks : Obligations.EncodeRangeChecks := by
  unfold Obligations.EncodeRangeChecks
  intro s hyph
  refine ⟨fun lon => rfl, fun a => rfl, fun a b h => ?_, fun a b h => ?_,
    fun a b hsouth hnorth h => ?_, fun a b hsouth hnorth h => ?_,
    fun a b hsouth hnorth hwest heast =>
      ⟨_, execEncode_of_accepted ⟨hsouth, hnorth, hwest, heast⟩ hyph s, rfl⟩⟩
  · exact execEncode_of_check_error hyph s (b := .latBelowMin) (if_pos h)
  · have hmin : ¬ a < 5 / 2 := by linarith
    exact execEncode_of_check_error hyph s (b := .latAboveMax) ((if_neg hmin).trans (if_pos h))
  · exact execEncode_of_check_error hyph s (b := .lonBelowMin)
      ((if_neg hsouth.not_gt).trans <| (if_neg hnorth.not_gt).trans (if_pos h))
  · have hmin : ¬ b < 127 / 2 := by linarith
    exact execEncode_of_check_error hyph s (b := .lonAboveMax)
      ((if_neg hsouth.not_gt).trans <| (if_neg hnorth.not_gt).trans <|
        (if_neg hmin).trans (if_pos h))

/-! ### The windows level by level (40_encode R72, R77) -/

theorem encodeWindow_succ (lat lon : ℚ) (hyph : Bool) (k : ℕ) (s : State) :
    encodeWindow lat lon hyph (k + 1) s =
      narrowUp (encodeWindow lat lon hyph k s) (rowOf (encodeWindow lat lon hyph k s) lat)
        (colOf (encodeWindow lat lon hyph k s) lon) := by
  simp only [encodeWindow, encodeLevels_succ, encodeLevel_window]

section
variable (lat lon : ℚ) (hyph : Bool) (k : ℕ) (s : State)

theorem latDiv_encodeWindow_pos : 0 < latDiv (encodeWindow lat lon hyph k s) := by
  rw [encodeWindow, (encodeLevels_onLattice lat lon hyph k s).latDiv_eq]; positivity

theorem lonDiv_encodeWindow_pos : 0 < lonDiv (encodeWindow lat lon hyph k s) := by
  rw [encodeWindow, (encodeLevels_onLattice lat lon hyph k s).lonDiv_eq]; positivity

end

/-- The latitude edges of the windows follow the latitude alone. -/
theorem encodeWindow_lat_congr (lat lon lon' : ℚ) (hyph hyph' : Bool) (k : ℕ) (s s' : State) :
    (encodeWindow lat lon hyph k s).minLat = (encodeWindow lat lon' hyph' k s').minLat ∧
      (encodeWindow lat lon hyph k s).maxLat = (encodeWindow lat lon' hyph' k s').maxLat := by
  induction k with
  | zero => exact ⟨rfl, rfl⟩
  | succ k ih =>
    obtain ⟨hmin, hmax⟩ := ih
    simp only [encodeWindow_succ, narrowUp, rowOf, latDiv, hmin, hmax, and_self]

/-- The longitude edges of the windows follow the longitude alone. -/
theorem encodeWindow_lon_congr (lat lat' lon : ℚ) (hyph hyph' : Bool) (k : ℕ) (s s' : State) :
    (encodeWindow lat lon hyph k s).minLon = (encodeWindow lat' lon hyph' k s').minLon ∧
      (encodeWindow lat lon hyph k s).maxLon = (encodeWindow lat' lon hyph' k s').maxLon := by
  induction k with
  | zero => exact ⟨rfl, rfl⟩
  | succ k ih =>
    obtain ⟨hmin, hmax⟩ := ih
    simp only [encodeWindow_succ, narrowUp, colOf, lonDiv, hmin, hmax, and_self]

theorem rowOf_encodeWindow_congr (lat lon lon' : ℚ) (hyph hyph' : Bool) (k : ℕ) (s s' : State) :
    rowOf (encodeWindow lat lon hyph k s) lat = rowOf (encodeWindow lat lon' hyph' k s') lat := by
  obtain ⟨hmin, hmax⟩ := encodeWindow_lat_congr lat lon lon' hyph hyph' k s s'
  simp only [rowOf, latDiv, hmin, hmax]

theorem colOf_encodeWindow_congr (lat lat' lon : ℚ) (hyph hyph' : Bool) (k : ℕ) (s s' : State) :
    colOf (encodeWindow lat lon hyph k s) lon = colOf (encodeWindow lat' lon hyph' k s') lon := by
  obtain ⟨hmin, hmax⟩ := encodeWindow_lon_congr lat lat' lon hyph hyph' k s s'
  simp only [colOf, lonDiv, hmin, hmax]

/-! ### The digits of the grid index (40_encode R74, R81) -/

theorem extractLsb'_shiftIn_last (x : GridIndex) (row col : Digit) :
    (x * 16 + BitVec.ofNat 40 (digitValue row col)).extractLsb' 0 4 =
      BitVec.ofNat 4 (digitValue row col) := by
  rw [shiftIn_eq_append x (digitValue_lt row col)]
  exact BitVec.extractLsb'_append_eq_right

theorem extractLsb'_shiftIn_above (x : GridIndex) (row col : Digit) {i : ℕ} (hi : i < 9) :
    (x * 16 + BitVec.ofNat 40 (digitValue row col)).extractLsb' (4 * (i + 1)) 4 =
      x.extractLsb' (4 * i) 4 := by
  rw [shiftIn_eq_append x (digitValue_lt row col), BitVec.extractLsb'_append_eq_of_le (by omega),
    BitVec.extractLsb'_setWidth_of_le (by omega)]
  congr 1

/-- After `i + j + 1` levels the digit of level `i + 1` stands `j` digits above the last. -/
theorem extractLsb'_encodeLevels_gidx (lat lon : ℚ) (hyph : Bool) (i : ℕ) {j : ℕ} (hj : j ≤ 9)
    (s : State) :
    (encodeLevels lat lon hyph (i + j + 1) (startEncode s)).work.gidx.extractLsb' (4 * j) 4 =
      BitVec.ofNat 4 (digitValue (rowOf (encodeWindow lat lon hyph i s) lat)
        (colOf (encodeWindow lat lon hyph i s) lon)) := by
  induction j with
  | zero =>
    rw [encodeLevels_succ, encodeLevel_gidx]
    exact extractLsb'_shiftIn_last _ _ _
  | succ j ih =>
    rw [encodeLevels_succ, encodeLevel_gidx, extractLsb'_shiftIn_above _ _ _ (by omega)]
    exact ih (by omega)

theorem digitRow_digitValue (row col : Digit) :
    digitRow (BitVec.ofNat 4 (digitValue row col)) = row := by
  revert row col; decide

theorem digitCol_digitValue (row col : Digit) :
    digitCol (BitVec.ofNat 4 (digitValue row col)) = col := by
  revert row col; decide

section
variable (lat lon : ℚ) (hyph : Bool) (s : State) {k : ℕ}

/-- The digit of level `k` is the cell choice in the window after `k - 1` levels. -/
theorem levelDigit_encodeLevels (h1 : 1 ≤ k) (h10 : k ≤ 10) :
    levelDigit (encodeLevels lat lon hyph LEVELS (startEncode s)).work.gidx k =
      BitVec.ofNat 4 (digitValue (rowOf (encodeWindow lat lon hyph (k - 1) s) lat)
        (colOf (encodeWindow lat lon hyph (k - 1) s) lon)) := by
  rw [← extractLsb'_encodeLevels_gidx lat lon hyph (k - 1) (j := 10 - k) (by omega), levelDigit,
    LEVELS, show k - 1 + (10 - k) + 1 = 10 by omega, show 40 - 4 * k = 4 * (10 - k) by omega]

theorem digitRow_encodeLevels (h1 : 1 ≤ k) (h10 : k ≤ 10) :
    digitRow (levelDigit (encodeLevels lat lon hyph LEVELS (startEncode s)).work.gidx k) =
      rowOf (encodeWindow lat lon hyph (k - 1) s) lat := by
  rw [levelDigit_encodeLevels lat lon hyph s h1 h10, digitRow_digitValue]

theorem digitCol_encodeLevels (h1 : 1 ≤ k) (h10 : k ≤ 10) :
    digitCol (levelDigit (encodeLevels lat lon hyph LEVELS (startEncode s)).work.gidx k) =
      colOf (encodeWindow lat lon hyph (k - 1) s) lon := by
  rw [levelDigit_encodeLevels lat lon hyph s h1 h10, digitCol_digitValue]

end

/-! ### ENCODE is pure (40_encode R80) -/

theorem execEncode_frame (lat lon : CoordNum) (hyph : Bool) (s : State) :
    ∃ t, execEncode lat lon hyph s = .next t ∧ EncodeFrame s t := by
  cases hc : checkCoordinates lat lon with
  | error b => exact ⟨_, execEncode_of_check_error hyph s hc, encodeFrame_raiseError _ s⟩
  | ok p => exact ⟨_, execEncode_of_check_ok hyph s hc, encodeFrame_encodeLevels _ _ hyph LEVELS s⟩

/-- What ENCODE reports depends on its operands and the parameters alone. -/
theorem execEncode_results_congr (lat lon : CoordNum) (hyph : Bool) {s s' : State}
    (hcfg : s.cfg = s'.cfg) :
    ∃ t t', execEncode lat lon hyph s = .next t ∧ execEncode lat lon hyph s' = .next t' ∧
      t.res.status = t'.res.status ∧ t.res.errinfo = t'.res.errinfo ∧
      (t.res.status = 0 → t.work.codeOut = t'.work.codeOut ∧ t.work.gidx = t'.work.gidx) := by
  cases hc : checkCoordinates lat lon with
  | error b =>
    exact ⟨_, _, execEncode_of_check_error hyph s hc, execEncode_of_check_error hyph s' hc,
      rfl, rfl, fun hok => by cases hok⟩
  | ok p =>
    have hsame := (sameEncode_startEncode hcfg).encodeLevels p.1 p.2 hyph LEVELS
    exact ⟨_, _, execEncode_of_check_ok hyph s hc, execEncode_of_check_ok hyph s' hc, rfl, rfl,
      fun _ => ⟨hsame.codeOut, hsame.gidx⟩⟩

/-- Settles O23: the frame of both ends, and the rows and the columns of the windows. -/
theorem encodeIsPure : Obligations.EncodeIsPure := by
  unfold Obligations.EncodeIsPure
  refine ⟨fun s lat lon hyph => execEncode_frame lat lon hyph s,
    fun s s' lat lon hyph hcfg => execEncode_results_congr lat lon hyph hcfg, ?_⟩
  intro s s' lat lat' lon lon' hyph hyph' h h'
  refine ⟨_, _, execEncode_of_accepted h hyph s, execEncode_of_accepted h' hyph' s', ?_, ?_⟩
  · rintro rfl k h1 h10
    rw [respondOk_work, respondOk_work, digitRow_encodeLevels _ _ _ _ h1 h10,
      digitRow_encodeLevels _ _ _ _ h1 h10]
    exact rowOf_encodeWindow_congr lat lon lon' hyph hyph' (k - 1) s s'
  · rintro rfl k h1 h10
    rw [respondOk_work, respondOk_work, digitCol_encodeLevels _ _ _ _ h1 h10,
      digitCol_encodeLevels _ _ _ _ h1 h10]
    exact colOf_encodeWindow_congr lat lat' lon hyph hyph' (k - 1) s s'

/-! ### Coordinates on lines of the subdivision (40_encode R82) -/

/-- The floor of a point on the `n`-th line of a subdivision. -/
theorem floor_of_line (lo : ℚ) {d : ℚ} (hd : 0 < d) (n : ℤ) : ⌊(lo + n * d - lo) / d⌋ = n := by
  rw [add_sub_cancel_left, mul_div_cancel_right₀ _ hd.ne', Int.floor_intCast]

section
variable {w : Window} {lat lon : ℚ} {n : ℤ}

theorem rowOf_of_line (hd : 0 < latDiv w) (h : lat = w.minLat + n * latDiv w) :
    rowOf w lat = clampDigit (3 - n) := by
  rw [rowOf, floorOf_eq, h, floor_of_line _ hd]

theorem colOf_of_line (hd : 0 < lonDiv w) (h : lon = w.minLon + n * lonDiv w) :
    colOf w lon = clampDigit n := by
  rw [colOf, floorOf_eq, h, floor_of_line _ hd]

theorem rowOf_of_eq_minLat (hd : 0 < latDiv w) (h : lat = w.minLat) : (rowOf w lat).val = 3 := by
  rw [rowOf_of_line (n := 0) hd (by simpa using h)]; rfl

theorem rowOf_of_eq_maxLat (hd : 0 < latDiv w) (h : lat = w.maxLat) : (rowOf w lat).val = 0 := by
  rw [rowOf_of_line (n := 4) hd (by simpa using h.trans (maxLat_eq w))]; rfl

theorem colOf_of_eq_minLon (hd : 0 < lonDiv w) (h : lon = w.minLon) : (colOf w lon).val = 0 := by
  rw [colOf_of_line (n := 0) hd (by simpa using h)]; rfl

theorem colOf_of_eq_maxLon (hd : 0 < lonDiv w) (h : lon = w.maxLon) : (colOf w lon).val = 3 := by
  rw [colOf_of_line (n := 4) hd (by simpa using h.trans (maxLon_eq w))]; rfl

/-- A latitude on a line below the north edge is on the south edge of the part it chooses. -/
theorem narrowUp_minLat_of_line (hd : 0 < latDiv w) (h : lat = w.minLat + n * latDiv w)
    (h0 : 0 ≤ n) (h3 : n ≤ 3) (col : Digit) : lat = (narrowUp w (rowOf w lat) col).minLat := by
  have hrow : ((rowOf w lat).val : ℚ) = 3 - n := by
    rw [rowOf_of_line hd h]
    exact_mod_cast clampDigit_of_mem (v := 3 - n) (by omega) (by omega)
  rw [narrowUp, hrow, h]; ring

/-- A longitude on a line west of the east edge is on the west edge of the part it chooses. -/
theorem narrowUp_minLon_of_line (hd : 0 < lonDiv w) (h : lon = w.minLon + n * lonDiv w)
    (h0 : 0 ≤ n) (h3 : n ≤ 3) (row : Digit) : lon = (narrowUp w row (colOf w lon)).minLon := by
  have hcol : ((colOf w lon).val : ℚ) = n := by
    rw [colOf_of_line hd h]
    exact_mod_cast clampDigit_of_mem h0 h3
  rw [narrowUp, hcol, h]; ring

theorem narrowUp_maxLat_of_eq (hd : 0 < latDiv w) (h : lat = w.maxLat) (col : Digit) :
    lat = (narrowUp w (rowOf w lat) col).maxLat := by
  simp only [narrowUp, rowOf_of_eq_maxLat hd h]
  rw [h, maxLat_eq]; push_cast; ring

theorem narrowUp_maxLon_of_eq (hd : 0 < lonDiv w) (h : lon = w.maxLon) (row : Digit) :
    lon = (narrowUp w row (colOf w lon)).maxLon := by
  simp only [narrowUp, colOf_of_eq_maxLon hd h]
  rw [h, maxLon_eq]; push_cast; ring

/-- The number of the line through a point is not negative inside the window. -/
theorem line_nonneg {lo d x : ℚ} (hd : 0 < d) (hlo : lo ≤ x) (h : x = lo + n * d) : 0 ≤ n := by
  have hn : 0 ≤ (n : ℚ) * d := by linarith
  exact_mod_cast nonneg_of_mul_nonneg_left hn hd

end

section
variable {lat lon : ℚ} (hyph : Bool) (s : State)

/-- What a narrowing toward the coordinate keeps of a window holds at every later level. -/
theorem encodeWindow_keeps {P : Window → Prop}
    (hstep : ∀ w, 0 < latDiv w → 0 < lonDiv w → P w → P (narrowUp w (rowOf w lat) (colOf w lon)))
    {j k : ℕ} (hjk : j ≤ k) (h : P (encodeWindow lat lon hyph j s)) :
    P (encodeWindow lat lon hyph k s) := by
  induction k, hjk using Nat.le_induction with
  | base => exact h
  | succ k _ ih =>
    rw [encodeWindow_succ]
    exact hstep _ (latDiv_encodeWindow_pos lat lon hyph k s)
      (lonDiv_encodeWindow_pos lat lon hyph k s) ih

theorem rowOf_of_north_edge (h : lat = 77 / 2) (k : ℕ) :
    (rowOf (encodeWindow lat lon hyph k s) lat).val = 0 :=
  rowOf_of_eq_maxLat (latDiv_encodeWindow_pos lat lon hyph k s)
    (encodeWindow_keeps (P := fun w => lat = w.maxLat) hyph s
      (fun _ hd _ hw => narrowUp_maxLat_of_eq hd hw _) k.zero_le h)

theorem colOf_of_east_edge (h : lon = 199 / 2) (k : ℕ) :
    (colOf (encodeWindow lat lon hyph k s) lon).val = 3 :=
  colOf_of_eq_maxLon (lonDiv_encodeWindow_pos lat lon hyph k s)
    (encodeWindow_keeps (P := fun w => lon = w.maxLon) hyph s
      (fun _ _ hd hw => narrowUp_maxLon_of_eq hd hw _) k.zero_le h)

/-- A latitude on the south edge of its window stays there, in row 3. -/
theorem rowOf_of_south_edge {j k : ℕ} (hjk : j ≤ k)
    (h : lat = (encodeWindow lat lon hyph j s).minLat) :
    (rowOf (encodeWindow lat lon hyph k s) lat).val = 3 :=
  rowOf_of_eq_minLat (latDiv_encodeWindow_pos lat lon hyph k s)
    (encodeWindow_keeps (P := fun w => lat = w.minLat) hyph s
      (fun _ hd _ hw => narrowUp_minLat_of_line (n := 0) hd (by simpa using hw) le_rfl
        zero_le_three _) hjk h)

/-- A longitude on the west edge of its window stays there, in column 0. -/
theorem colOf_of_west_edge {j k : ℕ} (hjk : j ≤ k)
    (h : lon = (encodeWindow lat lon hyph j s).minLon) :
    (colOf (encodeWindow lat lon hyph k s) lon).val = 0 :=
  colOf_of_eq_minLon (lonDiv_encodeWindow_pos lat lon hyph k s)
    (encodeWindow_keeps (P := fun w => lon = w.minLon) hyph s
      (fun _ _ hd hw => narrowUp_minLon_of_line (n := 0) hd (by simpa using hw) le_rfl
        zero_le_three _) hjk h)

/-- The level after a latitude stands on a line takes it to a south edge. -/
theorem rowOf_of_line_before {j k : ℕ} {n : ℤ} (hpoint : HoldsPoint lat lon BR) (hjk : j < k)
    (h3 : n ≤ 3) (h : lat = (encodeWindow lat lon hyph j s).minLat +
      n * latDiv (encodeWindow lat lon hyph j s)) :
    (rowOf (encodeWindow lat lon hyph k s) lat).val = 3 := by
  have hd := latDiv_encodeWindow_pos lat lon hyph j s
  have h0 : 0 ≤ n := line_nonneg hd (encodeLevels_holdsPoint hpoint hyph j s).south h
  refine rowOf_of_south_edge hyph s hjk ?_
  rw [encodeWindow_succ]
  exact narrowUp_minLat_of_line hd h h0 h3 _

/-- The level after a longitude stands on a line takes it to a west edge. -/
theorem colOf_of_line_before {j k : ℕ} {n : ℤ} (hpoint : HoldsPoint lat lon BR) (hjk : j < k)
    (h3 : n ≤ 3) (h : lon = (encodeWindow lat lon hyph j s).minLon +
      n * lonDiv (encodeWindow lat lon hyph j s)) :
    (colOf (encodeWindow lat lon hyph k s) lon).val = 0 := by
  have hd := lonDiv_encodeWindow_pos lat lon hyph j s
  have h0 : 0 ≤ n := line_nonneg hd (encodeLevels_holdsPoint hpoint hyph j s).west h
  refine colOf_of_west_edge hyph s hjk ?_
  rw [encodeWindow_succ]
  exact narrowUp_minLon_of_line hd h h0 h3 _

end

/-- Settles O24: an edge holds its coordinate from its level on, and a line leads to an edge. -/
theorem edgeAndLineDigits : Obligations.EdgeAndLineDigits := by
  unfold Obligations.EdgeAndLineDigits
  intro s lat lon hyph h
  have hpoint : HoldsPoint lat lon BR := holdsPoint_BR_of_check (checkCoordinates_of_accepted h)
  refine ⟨_, execEncode_of_accepted h hyph s, fun k h1 h10 => ?_⟩
  rw [respondOk_work, digitRow_encodeLevels lat lon hyph s h1 h10,
    digitCol_encodeLevels lat lon hyph s h1 h10]
  refine ⟨fun hlat => rowOf_of_north_edge hyph s hlat (k - 1),
    fun hlon => colOf_of_east_edge hyph s hlon (k - 1),
    fun hlat => rowOf_of_south_edge hyph s (k - 1).zero_le hlat,
    fun hlon => colOf_of_west_edge hyph s (k - 1).zero_le hlon, fun j n hj hjk h3 => ?_⟩
  have hlevel : j - 1 < k - 1 := by omega
  exact ⟨rowOf_of_line_before hyph s hpoint hlevel h3, colOf_of_line_before hyph s hpoint hlevel h3⟩

end Sys2Proof.Machine
end

section
/-! DECODE of the code of an ENCODE (41_decode R98, R99), and the worked example of both. -/

namespace Sys2Proof.Machine

open Sys2Proof Sys2Proof.Claims

/-! ### The renderings that `writeCentroid` writes (41_decode R97) -/

section
variable (s : State)

@[simp] theorem writeCentroid_latStr : (writeCentroid s).res.latStr =
    render6 (round6 ((s.work.window.minLat + s.work.window.maxLat) / 2)) := rfl
@[simp] theorem writeCentroid_lonStr : (writeCentroid s).res.lonStr =
    render6 (round6 ((s.work.window.minLon + s.work.window.maxLon) / 2)) := rfl
@[simp] theorem writeCentroid_latUdeg : (writeCentroid s).res.latUdeg =
    BitVec.ofNat 27 (round6 ((s.work.window.minLat + s.work.window.maxLat) / 2)) := rfl
@[simp] theorem writeCentroid_lonUdeg : (writeCentroid s).res.lonUdeg =
    BitVec.ofNat 27 (round6 ((s.work.window.minLon + s.work.window.maxLon) / 2)) := rfl

end

/-! ### The window and the grid index depend on the coordinate alone -/

theorem encodeWindow_congr (lat lon : ℚ) (hyph hyph' : Bool) (k : ℕ) (s s' : State) :
    encodeWindow lat lon hyph k s = encodeWindow lat lon hyph' k s' := by
  induction k with
  | zero => rfl
  | succ k ih => rw [encodeWindow_succ, encodeWindow_succ, ih]

theorem encodeLevels_gidx_congr (lat lon : ℚ) (hyph hyph' : Bool) (k : ℕ) (s s' : State) :
    (encodeLevels lat lon hyph k (startEncode s)).work.gidx =
      (encodeLevels lat lon hyph' k (startEncode s')).work.gidx := by
  induction k with
  | zero => rfl
  | succ k ih =>
    have hwindow := encodeWindow_congr lat lon hyph hyph' k s s'
    simp only [encodeWindow] at hwindow
    simp only [encodeLevels_succ, encodeLevel_gidx, ih, hwindow]

/-! ### DECODE follows ENCODE -/

theorem sep_not_mem_symbolsOf {g : SymbolGrid} (hg : gridAdmissible g = true) (x : GridIndex) :
    SEP ∉ symbolsOf g x := by
  obtain ⟨-, hsep, -, -⟩ := (admissibleGridConditions.1 g).mp hg
  intro hmem
  obtain ⟨i, -, hi⟩ := List.mem_map.mp hmem
  exact hsep _ _ hi

/-- The separators of a rendered form are all that `strip` takes off. -/
theorem strip_rendered (hyph : Bool) {l : List Ch} (h : SEP ∉ l) : strip (rendered hyph l) = l := by
  cases hyph with
  | false => exact strip_of_not_mem h
  | true =>
    have hsplit : l.take 3 ++ ((l.drop 3).take 3 ++ l.drop 6) = l := by
      rw [← List.drop_drop (i := 3) (j := 3), List.take_append_drop, List.take_append_drop]
    calc strip (rendered true l)
        = strip (l.take 3 ++ ((l.drop 3).take 3 ++ l.drop 6)) := by
          simp [rendered, strip_append]
      _ = l := by rw [hsplit, strip_of_not_mem h]

theorem decodeLevels_singleton {s : State} (hg : gridAdmissible s.cfg.grid = true)
    (row col : Digit) :
    decodeLevels [gridAt s.cfg.grid row col] s = .ok (decodeLevel row col s) := by
  simp only [decodeLevels, (inv_eq_some_iff hg).mpr rfl]

/-- The narrowings of DECODE over the symbols of `n` levels of ENCODE lead to the same window. -/
theorem decodeLevels_lastSymbols (lat lon : ℚ) (hyph : Bool) (s : State) {u : State}
    (hg : gridAdmissible u.cfg.grid = true) {n : ℕ} (hn : n ≤ 10) :
    ∃ t, decodeLevels (lastSymbols u.cfg.grid n
        (encodeLevels lat lon hyph n (startEncode s)).work.gidx) (startDecode u) = .ok t ∧
      t.cfg = u.cfg ∧ t.work.window = encodeWindow lat lon hyph n s := by
  induction n with
  | zero => exact ⟨startDecode u, rfl, rfl, rfl⟩
  | succ n ih =>
    obtain ⟨t, ht, hcfg, hwindow⟩ := ih (by omega)
    refine ⟨decodeLevel (rowOf (encodeWindow lat lon hyph n s) lat)
      (colOf (encodeWindow lat lon hyph n s) lon) t, ?_, hcfg, ?_⟩
    · rw [encodeLevels_succ, encodeLevel_gidx, lastSymbols_shiftIn _ (by omega),
        decodeLevels_append, ht, ← hcfg]
      exact decodeLevels_singleton (hcfg ▸ hg) _ _
    · rw [decodeLevel_window, narrowDown_eq_narrowUp, hwindow, encodeWindow_succ]

/-- DECODE of the code of an ENCODE renders the centre of ENCODE's last window. -/
theorem execDecode_encodeLevels_codeOut (lat lon : ℚ) (hyph : Bool) {s u : State}
    (hg : gridAdmissible s.cfg.grid = true) (hcfg : u.cfg = s.cfg) :
    ∃ t, execDecode (encodeLevels lat lon hyph LEVELS (startEncode s)).work.codeOut u =
        .next (respondOk (writeCentroid t)) ∧
      t.work.window = encodeWindow lat lon hyph LEVELS s := by
  have hcode := encodeLevels_codeOut_ten lat lon hyph s
  set code := (encodeLevels lat lon hyph LEVELS (startEncode s)).work.codeOut
  have hstrip : strip code = symbolsOf s.cfg.grid
      (encodeLevels lat lon hyph LEVELS (startEncode s)).work.gidx := by
    rw [hcode, strip_rendered hyph (sep_not_mem_symbolsOf hg _)]
  obtain ⟨t, ht, -, hwindow⟩ := decodeLevels_lastSymbols lat lon hyph s
    (u := writeCanon code u) (by simpa [hcfg] using hg) (n := LEVELS) le_rfl
  refine ⟨t, ?_, hwindow⟩
  rw [execDecode_of_length (by rw [hstrip, symbolsOf_length, CODE_SYMS])]
  rw [writeCanon_cfg, hcfg, LEVELS, lastSymbols_ten, ← LEVELS, ← hstrip] at ht
  simp only [decodeSymbols, writeCanon_canon, ht]

/-- After an ENCODE, DECODE of its code answers the centre of its last window. -/
theorem exec_decode_of_exec_encode {lat lon : ℚ} (h : Accepted lat lon) (hyph : Bool) {s : State}
    (hg : gridAdmissible s.cfg.grid = true) :
    ∃ t v, exec (.encode (.fin lat) (.fin lon) hyph) s = .next t ∧
      t.work.gidx = (encodeLevels lat lon hyph LEVELS (startEncode s)).work.gidx ∧
      exec (.decode t.work.codeOut) t = .next (respondOk (writeCentroid v)) ∧
      v.work.window = encodeWindow lat lon hyph LEVELS s := by
  obtain ⟨v, hv, hwindow⟩ := execDecode_encodeLevels_codeOut lat lon hyph hg
    (u := respondOk (encodeLevels lat lon hyph LEVELS (startEncode s)))
    (by rw [respondOk_cfg, encodeLevels_cfg, startEncode_cfg])
  exact ⟨_, v, execEncode_of_accepted h hyph s, rfl, hv, hwindow⟩

/-! ### The worked example -/

/-- The level-10 cell of the worked example. -/
def exampleCell : Window where
  minLat := 7503289 / 262144
  maxLat := 3751649 / 131072
  minLon := 20240933 / 262144
  maxLon := 10120471 / 131072

theorem example_accepted : Accepted (28622788 / 10 ^ 6) (77213033 / 10 ^ 6) := by
  unfold Accepted; norm_num

theorem example_gidx (hyph : Bool) (s : State) :
    (encodeLevels (28622788 / 10 ^ 6) (77213033 / 10 ^ 6) hyph LEVELS
      (startEncode s)).work.gidx = 0x52492CC3F9 := by
  rw [encodeLevels_gidx_congr _ _ hyph false LEVELS s State.reset]
  decide +kernel

theorem example_window (hyph : Bool) (s : State) :
    encodeWindow (28622788 / 10 ^ 6) (77213033 / 10 ^ 6) hyph LEVELS s = exampleCell := by
  rw [encodeWindow_congr _ _ hyph false LEVELS s State.reset]
  decide +kernel

/-- Settles O33: the numbers are those of any state, and DECODE's cell is ENCODE's. -/
theorem workedExample : Obligations.WorkedExample := by
  unfold Obligations.WorkedExample
  intro s hyph hg
  obtain ⟨t, v, ht, hgidx, hv, hwindow⟩ := exec_decode_of_exec_encode example_accepted hyph hg
  rw [example_gidx] at hgidx
  rw [example_window] at hwindow
  refine ⟨t, _, ht, hgidx, hv, ?_⟩
  simp only [respondOk_latC, respondOk_lonC, respondOk_latUdeg, respondOk_lonUdeg,
    respondOk_latStr, respondOk_lonStr, writeCentroid_latC, writeCentroid_lonC,
    writeCentroid_latUdeg, writeCentroid_lonUdeg, writeCentroid_latStr, writeCentroid_lonStr,
    hwindow]
  decide +kernel

end Sys2Proof.Machine
end

section
/-! DECODE (41_decode): its three ends with their frame, and the counter and the window of its
levels. -/

namespace Sys2Proof.Machine

open Sys2Proof Sys2Proof.Claims

/-! ### A canonical form of the wrong length (41_decode R92) -/

theorem strip_replicate_sep (n : ℕ) : strip (List.replicate n SEP) = [] := by
  induction n with
  | zero => rfl
  | succ n ih => rw [List.replicate_succ, strip_cons_sep, ih]

/-- Settles O34: the length check ends DECODE, and separators leave nothing to count. -/
theorem wrongLengthRaisesFormatError : Obligations.WrongLengthRaisesFormatError := by
  unfold Obligations.WrongLengthRaisesFormatError
  refine ⟨fun s code hlen => execDecode_of_length_ne hlen, fun s n => ?_⟩
  have hcanon := strip_replicate_sep n
  have hlen : (strip (List.replicate n SEP)).length ≠ CODE_SYMS := by rw [hcanon]; nofun
  exact ⟨_, execDecode_of_length_ne hlen, hcanon, rfl, rfl⟩

/-! ### The frame of DECODE (41_decode R100, 10_state R26) -/

theorem decodeFrame_format (code : List Ch) (s : State) :
    DecodeFrame s (raiseError .format (writeCanon code s)) :=
  ⟨rfl, rfl, rfl, rfl, rfl, rfl, fun _ => rfl⟩

/-- An error leaves the results as they were, and a success writes those of DECODE only. -/
theorem decodeFrame_decodeSymbols (code : List Ch) (s : State) :
    DecodeFrame s (decodeSymbols (writeCanon code s)) := by
  rcases decodeSymbols_cases (writeCanon code s) with ⟨ch, -, hend⟩ | ⟨-, hend⟩ <;>
    rw [hend, levelsEnd_frame]
  · exact ⟨rfl, rfl, rfl, rfl, rfl, rfl, fun _ => rfl⟩
  · exact ⟨rfl, rfl, rfl, rfl, rfl, rfl, fun hne => absurd rfl hne⟩

theorem execDecode_frame {code : List Ch} {s t : State} (h : execDecode code s = .next t) :
    DecodeFrame s t := by
  by_cases hlen : (strip code).length = CODE_SYMS
  · rw [execDecode_of_length hlen] at h
    cases h
    exact decodeFrame_decodeSymbols code s
  · rw [execDecode_of_length_ne hlen] at h
    cases h
    exact decodeFrame_format code s

/-! ### The two ends of a DECODE past its length check (41_decode R93, R96) -/

section
variable {code : List Ch} {s t : State} (hlen : (strip code).length = CODE_SYMS)
include hlen

theorem execDecode_of_levels_ok
    (h : decodeLevels (strip code) (startDecode (writeCanon code s)) = .ok t) :
    execDecode code s = .next (respondOk (writeCentroid t)) := by
  rw [execDecode_of_length hlen]
  simp only [decodeSymbols, writeCanon_canon, h]

theorem execDecode_of_levels_error {ch : Ch}
    (h : decodeLevels (strip code) (startDecode (writeCanon code s)) = .error (ch, t)) :
    execDecode code s = .next (raiseError (.invalidSymbol ch) t) := by
  rw [execDecode_of_length hlen]
  simp only [decodeSymbols, writeCanon_canon, h]

end

/-! ### Equal canonical forms give equal results (41_decode R100) -/

/-- The same six results of DECODE in the response registers (30_encoding R55). -/
def SameCentroid (t t' : State) : Prop :=
  t.res.latC = t'.res.latC ∧ t.res.lonC = t'.res.lonC ∧
  t.res.latStr = t'.res.latStr ∧ t.res.lonStr = t'.res.lonStr ∧
  t.res.latUdeg = t'.res.latUdeg ∧ t.res.lonUdeg = t'.res.lonUdeg

/-- The results are read off the final window. -/
theorem sameCentroid_writeCentroid {t t' : State} (h : t.work.window = t'.work.window) :
    SameCentroid (respondOk (writeCentroid t)) (respondOk (writeCentroid t')) := by
  simp [SameCentroid, h]

/-- What DECODE reports depends on its operand and the parameters alone. -/
theorem execDecode_results_congr (code : List Ch) {s s' : State} (hcfg : s.cfg = s'.cfg) :
    ∃ t t', execDecode code s = .next t ∧ execDecode code s' = .next t' ∧
      t.res.status = t'.res.status ∧ t.res.errinfo = t'.res.errinfo ∧
      (t.res.status = 0 → SameCentroid t t') := by
  by_cases hlen : (strip code).length = CODE_SYMS
  · rcases decodeLevels_congr (strip code) (s := startDecode (writeCanon code s))
      (s' := startDecode (writeCanon code s')) hcfg rfl with
      ⟨ch, t, t', h, h'⟩ | ⟨t, t', h, h', hwindow⟩
    · exact ⟨_, _, execDecode_of_levels_error hlen h, execDecode_of_levels_error hlen h', rfl, rfl,
        nofun⟩
    · exact ⟨_, _, execDecode_of_levels_ok hlen h, execDecode_of_levels_ok hlen h', rfl, rfl,
        fun _ => sameCentroid_writeCentroid hwindow⟩
  · exact ⟨_, _, execDecode_of_length_ne hlen, execDecode_of_length_ne hlen, rfl, rfl, nofun⟩

/-- Settles O37: the frame of every end, and one canonical form for both operands. -/
theorem decodeIsPure : Obligations.DecodeIsPure := by
  unfold Obligations.DecodeIsPure
  refine ⟨fun s code => ?_, fun s s' code code' hcfg hcode => ?_⟩
  · obtain ⟨t, ht, -⟩ := execDecode_canon code s
    exact ⟨t, ht, execDecode_frame ht⟩
  · have hsame : execDecode code' s' = execDecode code s' := by
      rw [← execDecode_strip code', ← hcode, execDecode_strip]
    obtain ⟨t, t', ht, ht', hres⟩ := execDecode_results_congr code hcfg
    exact ⟨t, t', ht, hsame.trans ht', hres⟩

/-! ### The levels that run to their end -/

section
variable {symbols l m : List Ch} {s t : State}

theorem decodeLevels_append_of_ok (h : decodeLevels l s = .ok t) :
    decodeLevels (l ++ m) s = decodeLevels m t := by
  rw [decodeLevels_append, h]

theorem decodeLevels_of_all_symbols (s : State) (h : ∀ ch ∈ symbols, inv s.cfg.grid ch ≠ none) :
    ∃ t, decodeLevels symbols s = .ok t := by
  refine (decodeLevels_ok_iff symbols s).mpr (List.all_eq_true.mpr fun ch hch => ?_)
  exact Option.isSome_iff_ne_none.mpr (h ch hch)

theorem decodeLevels_ok_cfg (h : decodeLevels symbols s = .ok t) : t.cfg = s.cfg := by
  rw [← levelsEnd_of_ok h, levelsEnd_cfg]

theorem nextLevel_eq_min {level : ℕ} (h : level ≤ 10) : nextLevel level = min (level + 1) 10 := by
  unfold nextLevel LEVELS
  split <;> omega

/-- The counter advances once per symbol and stops at 10 (10_state R17). -/
theorem decodeLevels_level (hs : s.work.level ≤ 10) (h : decodeLevels symbols s = .ok t) :
    t.work.level = min (s.work.level + symbols.length) 10 := by
  induction symbols generalizing s with
  | nil => cases h; exact (min_eq_left hs).symm
  | cons ch rest ih =>
    unfold decodeLevels at h
    cases hc : inv s.cfg.grid ch with
    | none => simp [hc] at h
    | some cell =>
      simp only [hc] at h
      have hlevel : (decodeLevel cell.1 cell.2 s).work.level = min (s.work.level + 1) 10 :=
        nextLevel_eq_min hs
      rw [ih (by omega) h, hlevel, List.length_cons]
      omega

/-- The last of the levels looks its symbol up and narrows once more. -/
theorem decodeLevels_append_singleton_ok {ch : Ch} (h : decodeLevels (l ++ [ch]) s = .ok t) :
    ∃ u cell, decodeLevels l s = .ok u ∧ inv s.cfg.grid ch = some cell ∧
      t = decodeLevel cell.1 cell.2 u := by
  cases hl : decodeLevels l s with
  | error e => rw [decodeLevels_append, hl] at h; cases h
  | ok u =>
    rw [decodeLevels_append_of_ok hl] at h
    unfold decodeLevels at h
    rw [decodeLevels_ok_cfg hl] at h
    cases hc : inv s.cfg.grid ch with
    | none => simp [hc] at h
    | some cell =>
      simp only [hc, decodeLevels, Except.ok.injEq] at h
      exact ⟨u, cell, rfl, rfl, h.symm⟩

end

/-! ### The first foreign character (41_decode R93) -/

/-- The levels end at a foreign character, where those of the symbols before it have led. -/
theorem decodeLevels_of_foreign {before after : List Ch} {ch : Ch} {s t : State}
    (h : decodeLevels before s = .ok t) (hch : inv s.cfg.grid ch = none) :
    decodeLevels (before ++ ch :: after) s = .error (ch, t) := by
  rw [← decodeLevels_ok_cfg h] at hch
  rw [decodeLevels_append_of_ok h]
  simp only [decodeLevels, hch]

/-- Settles O35: the symbols before the foreign character are looked up, one level each. -/
theorem firstForeignCharacterReported : Obligations.FirstForeignCharacterReported := by
  unfold Obligations.FirstForeignCharacterReported
  intro s code before after ch hcode hlen hbefore hch
  obtain ⟨t, ht⟩ := decodeLevels_of_all_symbols (startDecode (writeCanon code s)) hbefore
  have hlevels : decodeLevels (strip code) (startDecode (writeCanon code s)) = .error (ch, t) :=
    hcode ▸ decodeLevels_of_foreign ht hch
  have hend := execDecode_of_levels_error hlen hlevels
  have hlevel : t.work.level = before.length + 1 := by
    have hshort : before.length + (after.length + 1) = 10 := by
      rw [← hlen, hcode, List.length_append, List.length_cons]
    rw [decodeLevels_level (by simp) ht, startDecode_level]
    omega
  exact ⟨_, hend, rfl, rfl, rfl, hlevel, execDecode_frame hend⟩

/-! ### The results of a valid code (41_decode R96, R97) -/

/-- A rounding of no more than 100 degrees is kept whole by its register of 27 bits. -/
theorem toNat_round6_of_le {q : ℚ} (h : q ≤ 100) :
    (BitVec.ofNat 27 (round6 q)).toNat = round6 q :=
  Nat.mod_eq_of_lt ((round6_le (m := 10 ^ 8) (by push_cast; linarith)).trans_lt (by norm_num))

theorem writeCentroid_udeg_toNat {t : State} (h : OnLattice 10 t.work.window) :
    (writeCentroid t).res.latUdeg.toNat = round6 (writeCentroid t).res.latC ∧
      (writeCentroid t).res.lonUdeg.toNat = round6 (writeCentroid t).res.lonC := by
  have hlat := h.latCentre_mem.2
  have hlon := h.lonCentre_mem.2
  rw [cellSide] at hlat hlon
  exact ⟨toNat_round6_of_le (by linarith), toNat_round6_of_le (by linarith)⟩

/-- A valid code completes ten levels on, at the counter's end, in a level-10 cell. -/
theorem execDecode_of_validCode {s : State} {code : List Ch} (h : ValidCode s.cfg.grid code) :
    ∃ t, execDecode code s = .next (respondOk (writeCentroid t)) ∧
      t.work.level = 10 ∧ OnLattice 10 t.work.window := by
  obtain ⟨hlen, hsymbols⟩ := h
  obtain ⟨t, ht⟩ := decodeLevels_of_all_symbols (startDecode (writeCanon code s)) hsymbols
  refine ⟨t, execDecode_of_levels_ok hlen ht, ?_, ?_⟩
  · rw [decodeLevels_level (by simp) ht, hlen, startDecode_level]
    rfl
  · simpa [hlen] using decodeLevels_onLattice (k := 0) onLattice_BR ht

/-- Settles O36: the ten levels end in a level-10 cell, whose centre is rendered. -/
theorem decodeRendersTheCentroid : Obligations.DecodeRendersTheCentroid := by
  unfold Obligations.DecodeRendersTheCentroid
  intro s code hvalid
  obtain ⟨t, ht, hlevel, hcell⟩ := execDecode_of_validCode hvalid
  have hframe := execDecode_frame ht
  obtain ⟨hlat, hlon⟩ := writeCentroid_udeg_toNat hcell
  refine ⟨_, ht, rfl, rfl, rfl, hlevel, rfl, rfl, hlat, hlon, congrArg render6 hlat.symm,
    congrArg render6 hlon.symm, fun hop => ?_, hframe⟩
  obtain ⟨-, hlatch, -⟩ := hframe
  have hdecode : (writeCentroid t).latch.op = opDecode := (congrArg Latches.op hlatch).trans hop
  rw [response_respondOk, resultFields_of_decode hdecode]
  rfl

/-! ### The windows of both operations (41_decode R99) -/

/-- The symbols of ENCODE's digits lead DECODE through ENCODE's windows. -/
theorem decodeLevels_window_of_encode_digits {symbols : List Ch} {s t : State} {lat lon : ℚ}
    {hyph : Bool}
    (hdigits : ∀ j, j < symbols.length → (symbols[j]?).bind (inv s.cfg.grid) =
      some (rowOf (encodeWindow lat lon hyph j s) lat, colOf (encodeWindow lat lon hyph j s) lon))
    (h : decodeLevels symbols (startDecode s) = .ok t) :
    t.work.window = encodeWindow lat lon hyph symbols.length s := by
  induction symbols using List.reverseRecOn generalizing t with
  | nil => cases h; rfl
  | append_singleton l ch ih =>
    obtain ⟨u, cell, hu, hcell, rfl⟩ := decodeLevels_append_singleton_ok h
    have hwindow : u.work.window = encodeWindow lat lon hyph l.length s := by
      refine ih (fun j hj => ?_) hu
      rw [← hdigits j (by simp; omega), List.getElem?_append_left hj]
    have hdigit := hdigits l.length (by simp)
    rw [startDecode_cfg] at hcell
    rw [List.getElem?_concat_length, Option.bind_some, hcell, Option.some.injEq] at hdigit
    rw [decodeLevel_window, narrowDown_eq_narrowUp, hwindow, hdigit, List.length_append,
      List.length_singleton, encodeWindow_succ]

/-- Settles O38: one narrowing for both operations, and the windows level by level. -/
theorem narrowingsAgree : Obligations.NarrowingsAgree := by
  unfold Obligations.NarrowingsAgree
  refine ⟨fun w row col => ⟨maxLat_eq w, narrowDown_eq_narrowUp w row col⟩, ?_⟩
  rintro s t lat lon hyph symbols - - rfl hdigits h
  exact decodeLevels_window_of_encode_digits hdigits h

end Sys2Proof.Machine
end

section
/-! ISVALID (42_isvalid): its verdict is whether the code is valid, and so is the ending of
DECODE. -/

namespace Sys2Proof.Machine

open Sys2Proof Sys2Proof.Claims

/-! ### Valid codes -/

section
variable {g : SymbolGrid}

theorem allSymbols_iff {l : List Ch} :
    allSymbols g l = true ↔ ∀ ch ∈ l, inv g ch ≠ none := by
  simp only [allSymbols, List.all_eq_true, Option.isSome_iff_ne_none]

/-- `INV` hits at each index of a string exactly when it hits at each of its characters. -/
theorem forall_bind_inv_iff_forall_mem {l : List Ch} :
    (∀ i, i < l.length → (l[i]?).bind (inv g) ≠ none) ↔ ∀ ch ∈ l, inv g ch ≠ none := by
  rw [List.forall_mem_iff_getElem]
  refine forall₂_congr fun i hi => ?_
  rw [List.getElem?_eq_getElem hi, Option.bind_some]

theorem validCode_iff_forall_bind_inv {code : List Ch} : ValidCode g code ↔
    (strip code).length = 10 ∧ ∀ i, i < 10 → ((strip code)[i]?).bind (inv g) ≠ none := by
  refine and_congr_right fun hlen => ?_
  rw [← forall_bind_inv_iff_forall_mem, hlen]

end

/-! ### The verdict of ISVALID (42_isvalid R105, R106) -/

/-- What ISVALID writes to `VALID`, from any state whose grid is `g`. -/
def verdict (g : SymbolGrid) (code : List Ch) : Bool :=
  (strip code).length == CODE_SYMS && allSymbols g (strip code)

theorem execIsValid_eq (code : List Ch) (s : State) : execIsValid code s =
    .next (respondOk (writeValid (verdict s.cfg.grid code) (writeCanon code s))) := rfl

theorem verdict_iff_validCode {g : SymbolGrid} {code : List Ch} :
    verdict g code = true ↔ ValidCode g code := by
  rw [verdict, Bool.and_eq_true, beq_iff_eq, allSymbols_iff]
  rfl

/-- Settles O45: the verdict is whether the code is valid, index by index. -/
theorem isValidVerdict : Obligations.IsValidVerdict := by
  unfold Obligations.IsValidVerdict
  exact fun s code => ⟨verdict s.cfg.grid code, execIsValid_eq code s,
    verdict_iff_validCode.trans validCode_iff_forall_bind_inv⟩

/-! ### The endings of DECODE by the validity of its operand (42_isvalid R108) -/

/-- A code that is not valid fails the length check or a look-up. -/
theorem execDecode_of_not_validCode {s : State} {code : List Ch}
    (h : ¬ ValidCode s.cfg.grid code) :
    ∃ u, execDecode code s = .next u ∧ (u.res.status = 2 ∨ u.res.status = 3) := by
  by_cases hlen : (strip code).length = CODE_SYMS
  · cases hd : decodeLevels (strip code) (startDecode (writeCanon code s)) with
    | error p => exact ⟨_, execDecode_of_levels_error hlen hd, .inr rfl⟩
    | ok t =>
      have hall := (decodeLevels_ok_iff _ _).mp ⟨t, hd⟩
      exact absurd ⟨hlen, allSymbols_iff.mp hall⟩ h
  · exact ⟨_, execDecode_of_length_ne hlen, .inl rfl⟩

/-- DECODE ends with `OK` on the valid codes, and with one of its two errors on the others. -/
theorem execDecode_status_iff (code : List Ch) (s : State) :
    ∃ u, execDecode code s = .next u ∧ (ValidCode s.cfg.grid code ↔ u.res.status = 0) ∧
      (¬ ValidCode s.cfg.grid code ↔ u.res.status = 2 ∨ u.res.status = 3) := by
  by_cases hvalid : ValidCode s.cfg.grid code
  · obtain ⟨t, ht, -⟩ := execDecode_of_validCode hvalid
    exact ⟨_, ht, iff_of_true hvalid rfl, iff_of_false (not_not.mpr hvalid) nofun⟩
  · obtain ⟨u, hu, hstatus⟩ := execDecode_of_not_validCode hvalid
    have hne : u.res.status ≠ 0 := by rcases hstatus with h | h <;> rw [h] <;> decide
    exact ⟨u, hu, iff_of_false hvalid hne, iff_of_true hvalid hstatus⟩

/-- Settles O46: both operations tell the valid codes from the others. -/
theorem isValidAgreesWithDecode : Obligations.IsValidAgreesWithDecode := by
  unfold Obligations.IsValidAgreesWithDecode
  intro s s' code hcfg
  obtain ⟨u, hu, hok, herror⟩ := execDecode_status_iff code s'
  have hverdict := execIsValid_eq code s
  rw [hcfg] at hverdict
  exact ⟨_, u, hverdict, hu, verdict_iff_validCode.trans hok,
    (Bool.eq_false_iff.trans (not_congr verdict_iff_validCode)).trans herror⟩

end Sys2Proof.Machine
end

section
/-! The windows and the digits of ENCODE in closed form (43_properties R114 to R119). -/

namespace Sys2Proof.Machine

open Sys2Proof Sys2Proof.Claims

/-! ### The window of a level (43_properties R114, R116) -/

theorem encodeWindow_onLattice (lat lon : ℚ) (hyph : Bool) (k : ℕ) (s : State) :
    OnLattice k (encodeWindow lat lon hyph k s) := encodeLevels_onLattice lat lon hyph k s

theorem encodeWindow_holdsPoint {lat lon : ℚ} (h : Accepted lat lon) (hyph : Bool) (k : ℕ)
    (s : State) : HoldsPoint lat lon (encodeWindow lat lon hyph k s) :=
  encodeLevels_holdsPoint (holdsPoint_BR_of_check (checkCoordinates_of_accepted h)) hyph k s

/-- Settles O25: every level keeps the coordinate in its window. -/
theorem windowHoldsTheCoordinate : Obligations.WindowHoldsTheCoordinate := by
  unfold Obligations.WindowHoldsTheCoordinate
  intro s lat lon hyph k h _
  obtain ⟨hsouth, hnorth, hwest, heast⟩ := encodeWindow_holdsPoint h hyph k s
  exact ⟨hsouth, hnorth, hwest, heast⟩

theorem OnLattice.sides {k : ℕ} {w : Window} (h : OnLattice k w) :
    w.maxLat - w.minLat = 36 / 4 ^ k ∧ w.maxLon - w.minLon = 36 / 4 ^ k ∧
      latDiv w = 36 / 4 ^ (k + 1) ∧ lonDiv w = 36 / 4 ^ (k + 1) :=
  ⟨h.latSide, h.lonSide, h.latDiv_eq, h.lonDiv_eq⟩

theorem decodeLevels_onLattice_length {symbols : List Ch} {s t : State}
    (h : decodeLevels symbols (startDecode s) = .ok t) : OnLattice symbols.length t.work.window := by
  simpa using decodeLevels_onLattice (s := startDecode s) onLattice_BR h

/-- Settles O26: the windows of both operations are cells of their level. -/
theorem windowSideAtEachLevel : Obligations.WindowSideAtEachLevel := by
  unfold Obligations.WindowSideAtEachLevel
  exact ⟨fun s lat lon hyph k _ => (encodeWindow_onLattice lat lon hyph k s).sides,
    fun s t symbols _ h => (decodeLevels_onLattice_length h).sides⟩

/-! ### The lattice of level 10 (43_properties R115) -/

theorem cellSide_pos : 0 < cellSide := by norm_num [cellSide]

theorem side_ten : (36 : ℚ) / 4 ^ 10 = cellSide := by norm_num [cellSide]

theorem OnLattice.far_edges {w : Window} (h : OnLattice 10 w) :
    w.maxLat = w.minLat + cellSide ∧ w.maxLon = w.minLon + cellSide := by
  obtain ⟨-, -, -, -, -, hnorth, -, heast⟩ := h
  exact ⟨side_ten ▸ hnorth, side_ten ▸ heast⟩

/-- A line between cells of level `k` is one between cells of level 10. -/
theorem exists_line_of_level_ten {k a : ℕ} (hk : k ≤ 10) (ha : a ≤ 4 ^ k) (origin : ℚ) :
    ∃ j : ℕ, j ≤ 2 ^ 20 ∧ origin + a * (36 / 4 ^ k) = origin + 9 * j / 2 ^ 18 := by
  have hpow : 4 ^ k * 4 ^ (10 - k) = 2 ^ 20 := by
    rw [← pow_add, Nat.add_sub_cancel' hk]; norm_num
  refine ⟨a * 4 ^ (10 - k), hpow ▸ Nat.mul_le_mul_right _ ha, ?_⟩
  have hpow' : (4 : ℚ) ^ k * 4 ^ (10 - k) = 2 ^ 20 := by exact_mod_cast hpow
  have hne : (4 : ℚ) ^ k ≠ 0 := by positivity
  have hside : (36 : ℚ) / 4 ^ k = 9 * 4 ^ (10 - k) / 2 ^ 18 := by
    rw [div_eq_div_iff hne (by norm_num)]
    linear_combination -9 * hpow'
  push_cast
  rw [hside]
  ring

theorem OnLattice.edges {k : ℕ} {w : Window} (h : OnLattice k w) (hk : k ≤ 10) :
    ∃ j₁ j₂ j₃ j₄ : ℕ, j₁ ≤ 2 ^ 20 ∧ j₂ ≤ 2 ^ 20 ∧ j₃ ≤ 2 ^ 20 ∧ j₄ ≤ 2 ^ 20 ∧
      w.minLat = 5 / 2 + 9 * j₁ / 2 ^ 18 ∧ w.maxLat = 5 / 2 + 9 * j₂ / 2 ^ 18 ∧
      w.minLon = 127 / 2 + 9 * j₃ / 2 ^ 18 ∧ w.maxLon = 127 / 2 + 9 * j₄ / 2 ^ 18 := by
  obtain ⟨a, b, ha, hb, hsouth, hnorth, hwest, heast⟩ := h
  obtain ⟨j₁, hj₁, e₁⟩ := exists_line_of_level_ten hk ha.le (5 / 2)
  obtain ⟨j₂, hj₂, e₂⟩ := exists_line_of_level_ten (a := a + 1) hk ha (5 / 2)
  obtain ⟨j₃, hj₃, e₃⟩ := exists_line_of_level_ten hk hb.le (127 / 2)
  obtain ⟨j₄, hj₄, e₄⟩ := exists_line_of_level_ten (a := b + 1) hk hb (127 / 2)
  refine ⟨j₁, j₂, j₃, j₄, hj₁, hj₂, hj₃, hj₄, hsouth.trans e₁, ?_, hwest.trans e₃, ?_⟩
  · rw [← e₂, hnorth, hsouth]; push_cast; ring
  · rw [← e₄, heast, hwest]; push_cast; ring

/-- The centre of a level-10 cell is half a cell above its south and west edges. -/
theorem OnLattice.centre {w : Window} (h : OnLattice 10 w) :
    (w.minLat + w.maxLat) / 2 = w.minLat + cellSide / 2 ∧
      (w.minLon + w.maxLon) / 2 = w.minLon + cellSide / 2 := by
  obtain ⟨hnorth, heast⟩ := h.far_edges
  rw [hnorth, heast]
  constructor <;> ring

theorem den_dvd_of_eq_div {q : ℚ} {n : ℤ} {d : ℕ} (h : q = n / d) : q.den ∣ d := by
  have hdvd : ((Rat.divInt n d).den : ℤ) ∣ d := Rat.den_dvd n d
  rw [Rat.divInt_eq_div, Int.cast_natCast, ← h] at hdvd
  exact_mod_cast hdvd

theorem OnLattice.centre_den {w : Window} (h : OnLattice 10 w) :
    ((w.minLat + w.maxLat) / 2).den ∣ 2 ^ 19 ∧ ((w.minLon + w.maxLon) / 2).den ∣ 2 ^ 19 := by
  obtain ⟨a, b, -, -, hsouth, hnorth, hwest, heast⟩ := h
  constructor
  · refine den_dvd_of_eq_div (n := 5 * 2 ^ 18 + 9 * (2 * a + 1)) ?_
    rw [hnorth, hsouth]; push_cast; ring
  · refine den_dvd_of_eq_div (n := 127 * 2 ^ 18 + 9 * (2 * b + 1)) ?_
    rw [heast, hwest]; push_cast; ring

/-- Settles O27: cells of every level have their edges on the lattice of level 10. -/
theorem windowEdgesOnTheLattice : Obligations.WindowEdgesOnTheLattice := by
  unfold Obligations.WindowEdgesOnTheLattice
  refine ⟨fun s lat lon hyph k hk => ?_, fun s t symbols hk h => ?_, fun s code hvalid => ?_⟩
  · have hcell := encodeWindow_onLattice lat lon hyph k s
    exact ⟨hcell, hcell.edges hk⟩
  · have hcell := decodeLevels_onLattice_length h
    exact ⟨hcell, hcell.edges hk⟩
  · obtain ⟨t, ht, -, hcell⟩ := execDecode_of_validCode hvalid
    have hhalf : cellSide / 2 = 9 / 2 ^ 19 := by norm_num [cellSide]
    obtain ⟨hlat, hlon⟩ := hcell.centre
    rw [hhalf] at hlat hlon
    exact ⟨_, ht, rfl, hlat, hlon, hcell.centre_den⟩

/-! ### The cell of a coordinate on one axis -/

/-- The number, from the origin of an axis of 36 degrees, of the cell of level `k` that holds the
point `x`; the last cell holds the far end (43_properties R118, R119). -/
def axisCell (x : ℚ) (k : ℕ) : ℤ := min ⌊x / (36 / 4 ^ k)⌋ (4 ^ k - 1)

theorem axisCell_nonneg {x : ℚ} (h : 0 ≤ x) (k : ℕ) : 0 ≤ axisCell x k := by
  have hpow : (1 : ℤ) ≤ 4 ^ k := one_le_pow₀ (by norm_num)
  exact le_min (Int.floor_nonneg.mpr (by positivity)) (by omega)

theorem axisCell_lt (x : ℚ) (k : ℕ) : axisCell x k < 4 ^ k :=
  Int.lt_of_le_sub_one (min_le_right _ _)

theorem axisCell_zero {x : ℚ} (h : 0 ≤ x) : axisCell x 0 = 0 := by
  have hlow := axisCell_nonneg h 0
  have hhigh := axisCell_lt x 0
  omega

section
variable {origin p lo d : ℚ} {k : ℕ} (h0 : origin ≤ p) (h1 : p ≤ origin + 36)
  (hlo : lo = origin + axisCell (p - origin) k * (36 / 4 ^ k)) (hd : d = 36 / 4 ^ (k + 1))
include h0 h1 hlo hd

/-- The floor that a level computes in the cell of a point, before the clamp. -/
theorem floor_in_cell : 0 ≤ ⌊(p - lo) / d⌋ ∧ ⌊(p - lo) / d⌋ ≤ 4 ∧
    (⌊(p - lo) / d⌋ = 4 ↔ p = origin + 36) := by
  obtain ⟨-, hnonneg, hle, hfar, -⟩ :=
    index_refines (p - origin) (by linarith) (by linarith) k
  rw [hlo, hd, ← sub_sub]
  exact ⟨hnonneg, hle, hfar.trans sub_eq_iff_eq_add'⟩

/-- The clamped floor is the last base-4 digit of the cell's number at the next level. -/
theorem axisCell_succ : axisCell (p - origin) (k + 1) =
    4 * axisCell (p - origin) k + (clampDigit ⌊(p - lo) / d⌋).val := by
  rw [clampDigit_of_nonneg (floor_in_cell h0 h1 hlo hd).1, hlo, hd, ← sub_sub]
  obtain ⟨-, -, -, -, hnext⟩ := index_refines (p - origin) (by linarith) (by linarith) k
  exact hnext

/-- The clamp changes the floor exactly at the far end. -/
theorem clampDigit_floor_ne_iff :
    ((clampDigit ⌊(p - lo) / d⌋).val : ℤ) ≠ ⌊(p - lo) / d⌋ ↔ p = origin + 36 := by
  obtain ⟨hnonneg, hle, hfar⟩ := floor_in_cell h0 h1 hlo hd
  rw [clampDigit_of_nonneg hnonneg, ← hfar]
  omega

/-- A point on the far edge of its cell is at the far end of the axis. -/
theorem eq_far_end_of_eq_far_edge (h : p = lo + 36 / 4 ^ k) : p = origin + 36 := by
  refine (floor_in_cell h0 h1 hlo hd).2.2.mp ?_
  have hfour : (p - lo) / d = (4 : ℤ) := by
    rw [h, hd, pow_succ]; push_cast; field_simp; ring
  rw [hfour, Int.floor_intCast]

end

theorem axisCell_div_four {x : ℚ} (h0 : 0 ≤ x) (h1 : x ≤ 36) (k : ℕ) :
    axisCell x (k + 1) / 4 = axisCell x k := by
  obtain ⟨-, hnonneg, -, -, hnext⟩ := index_refines x h0 h1 k
  simp only [axisCell] at hnonneg hnext ⊢
  omega

theorem axisCell_div_pow {x : ℚ} (h0 : 0 ≤ x) (h1 : x ≤ 36) (k j : ℕ) :
    axisCell x (k + j) / 4 ^ j = axisCell x k := by
  induction j with
  | zero => simp
  | succ j ih =>
    rw [pow_succ', ← Int.ediv_ediv_of_nonneg (by norm_num), ← Nat.add_assoc,
      axisCell_div_four h0 h1, ih]

/-! ### The cells of level 10 on one axis -/

theorem axisCell_ten (x : ℚ) : axisCell x 10 = min ⌊x / cellSide⌋ (2 ^ 20 - 1) := by
  rw [axisCell, side_ten]
  norm_num

/-- The cut at the last cell acts exactly at the far end. -/
theorem last_lt_floor_iff {x : ℚ} (h1 : x ≤ 36) : 2 ^ 20 - 1 < ⌊x / cellSide⌋ ↔ x = 36 := by
  rw [Int.sub_one_lt_iff, Int.le_floor, le_div_iff₀ cellSide_pos]
  have hspan : ((2 ^ 20 : ℤ) : ℚ) * cellSide = 36 := by norm_num [cellSide]
  rw [hspan]
  exact ⟨fun h => le_antisymm h1 h, fun h => h.ge⟩

/-- A cell owns its near edge and not its far one, but for the last. -/
theorem axisCell_ten_eq_iff {x : ℚ} (h1 : x ≤ 36) {n : ℕ} (hn : n < 2 ^ 20) :
    axisCell x 10 = n ↔
      n * cellSide ≤ x ∧ (x < (n + 1) * cellSide ∨ (n = 2 ^ 20 - 1 ∧ x = 36)) := by
  have hlow : n * cellSide ≤ x ↔ (n : ℤ) ≤ ⌊x / cellSide⌋ := by
    rw [Int.le_floor, le_div_iff₀ cellSide_pos, Int.cast_natCast]
  have hhigh : x < (n + 1) * cellSide ↔ ⌊x / cellSide⌋ < n + 1 := by
    rw [Int.floor_lt, div_lt_iff₀ cellSide_pos]; push_cast; rfl
  rw [hlow, hhigh, axisCell_ten, ← last_lt_floor_iff h1]
  omega

/-! ### The windows and the choices of ENCODE by the cell of the coordinate -/

section
variable {lat lon : ℚ} (h : Accepted lat lon) {w : Window} {k : ℕ} (hw : OnLattice k w)
include h hw

theorem rowOf_of_cell (hmin : w.minLat = 5 / 2 + axisCell (lat - 5 / 2) k * (36 / 4 ^ k)) :
    ((rowOf w lat).val : ℤ) =
      3 - (axisCell (lat - 5 / 2) (k + 1) - 4 * axisCell (lat - 5 / 2) k) := by
  obtain ⟨hsouth, hnorth, -, -⟩ := h
  rw [axisCell_succ hsouth (by linarith) hmin hw.latDiv_eq, add_sub_cancel_left]
  exact clampDigit_three_sub _

theorem colOf_of_cell (hmin : w.minLon = 127 / 2 + axisCell (lon - 127 / 2) k * (36 / 4 ^ k)) :
    ((colOf w lon).val : ℤ) =
      axisCell (lon - 127 / 2) (k + 1) - 4 * axisCell (lon - 127 / 2) k := by
  obtain ⟨-, -, hwest, heast⟩ := h
  rw [axisCell_succ hwest (by linarith) hmin hw.lonDiv_eq, add_sub_cancel_left]
  rfl

end

section
variable {lat lon : ℚ} (h : Accepted lat lon) (hyph : Bool) (k : ℕ) (s : State)
include h

/-- The south-west corner of the window is that of the coordinate's cell on each axis. -/
theorem encodeWindow_corner :
    (encodeWindow lat lon hyph k s).minLat = 5 / 2 + axisCell (lat - 5 / 2) k * (36 / 4 ^ k) ∧
    (encodeWindow lat lon hyph k s).minLon =
      127 / 2 + axisCell (lon - 127 / 2) k * (36 / 4 ^ k) := by
  induction k with
  | zero =>
    obtain ⟨hsouth, -, hwest, -⟩ := h
    rw [axisCell_zero (by linarith), axisCell_zero (by linarith)]
    norm_num [encodeWindow, encodeLevels, BR]
  | succ k ih =>
    obtain ⟨hlat, hlon⟩ := ih
    have hcell := encodeWindow_onLattice lat lon hyph k s
    have hrow := congrArg (Int.cast : ℤ → ℚ) (rowOf_of_cell h hcell hlat)
    have hcol := congrArg (Int.cast : ℤ → ℚ) (colOf_of_cell h hcell hlon)
    push_cast at hrow hcol
    rw [encodeWindow_succ, narrowUp, hrow, hcol, hcell.latDiv_eq, hcell.lonDiv_eq, hlat, hlon,
      pow_succ]
    constructor <;> ring

theorem rowOf_encodeWindow : ((rowOf (encodeWindow lat lon hyph k s) lat).val : ℤ) =
    3 - axisCell (lat - 5 / 2) (k + 1) % 4 := by
  have hrow := rowOf_of_cell h (encodeWindow_onLattice lat lon hyph k s)
    (encodeWindow_corner h hyph k s).1
  obtain ⟨hsouth, hnorth, -, -⟩ := h
  have hdiv := axisCell_div_four (x := lat - 5 / 2) (by linarith) (by linarith) k
  omega

theorem colOf_encodeWindow : ((colOf (encodeWindow lat lon hyph k s) lon).val : ℤ) =
    axisCell (lon - 127 / 2) (k + 1) % 4 := by
  have hcol := colOf_of_cell h (encodeWindow_onLattice lat lon hyph k s)
    (encodeWindow_corner h hyph k s).2
  obtain ⟨-, -, hwest, heast⟩ := h
  have hdiv := axisCell_div_four (x := lon - 127 / 2) (by linarith) (by linarith) k
  omega

end

/-! ### The clamp (43_properties R117) -/

section
variable {lat lon : ℚ} (h : Accepted lat lon) (hyph : Bool) (k : ℕ) (s : State)
include h

theorem eq_maxLat_iff : lat = (encodeWindow lat lon hyph k s).maxLat ↔ lat = 77 / 2 := by
  constructor
  · intro hedge
    have hcell := encodeWindow_onLattice lat lon hyph k s
    have hside := hcell.latSide
    obtain ⟨hlat, -⟩ := encodeWindow_corner h hyph k s
    obtain ⟨hsouth, hnorth, -, -⟩ := h
    linarith [eq_far_end_of_eq_far_edge hsouth (by linarith) hlat hcell.latDiv_eq (by linarith)]
  · exact fun hlat => encodeWindow_keeps (P := fun w => lat = w.maxLat) hyph s
      (fun _ hd _ hw => narrowUp_maxLat_of_eq hd hw _) k.zero_le hlat

theorem eq_maxLon_iff : lon = (encodeWindow lat lon hyph k s).maxLon ↔ lon = 199 / 2 := by
  constructor
  · intro hedge
    have hcell := encodeWindow_onLattice lat lon hyph k s
    have hside := hcell.lonSide
    obtain ⟨-, hlon⟩ := encodeWindow_corner h hyph k s
    obtain ⟨-, -, hwest, heast⟩ := h
    linarith [eq_far_end_of_eq_far_edge hwest (by linarith) hlon hcell.lonDiv_eq (by linarith)]
  · exact fun hlon => encodeWindow_keeps (P := fun w => lon = w.maxLon) hyph s
      (fun _ _ hd hw => narrowUp_maxLon_of_eq hd hw _) k.zero_le hlon

theorem rowOf_ne_floor_iff :
    ((rowOf (encodeWindow lat lon hyph k s) lat).val : ℤ) ≠
      3 - floorOf ((lat - (encodeWindow lat lon hyph k s).minLat) /
        latDiv (encodeWindow lat lon hyph k s)) ↔ lat = 77 / 2 := by
  obtain ⟨hlat, -⟩ := encodeWindow_corner h hyph k s
  obtain ⟨hsouth, hnorth, -, -⟩ := h
  have hclamp := clampDigit_floor_ne_iff hsouth (by linarith) hlat
    (encodeWindow_onLattice lat lon hyph k s).latDiv_eq
  rw [show (5 / 2 + 36 : ℚ) = 77 / 2 by norm_num] at hclamp
  rw [← hclamp, rowOf, clampDigit_three_sub, floorOf_eq, Ne, sub_right_inj]

theorem colOf_ne_floor_iff :
    ((colOf (encodeWindow lat lon hyph k s) lon).val : ℤ) ≠
      floorOf ((lon - (encodeWindow lat lon hyph k s).minLon) /
        lonDiv (encodeWindow lat lon hyph k s)) ↔ lon = 199 / 2 := by
  obtain ⟨-, hlon⟩ := encodeWindow_corner h hyph k s
  obtain ⟨-, -, hwest, heast⟩ := h
  have hclamp := clampDigit_floor_ne_iff hwest (by linarith) hlon
    (encodeWindow_onLattice lat lon hyph k s).lonDiv_eq
  rw [show (127 / 2 + 36 : ℚ) = 199 / 2 by norm_num] at hclamp
  exact hclamp

end

/-- Settles O28: on each axis the floor leaves the digits only at the far end. -/
theorem clampOnlyOnTheOuterEdge : Obligations.ClampOnlyOnTheOuterEdge := by
  unfold Obligations.ClampOnlyOnTheOuterEdge
  intro s lat lon hyph k h _
  exact ⟨eq_maxLat_iff h hyph k s, eq_maxLon_iff h hyph k s, rowOf_ne_floor_iff h hyph k s,
    colOf_ne_floor_iff h hyph k s⟩

/-! ### The number that ten digits spell -/

/-- The number spelled in base 4 by the digits `d 1` to `d n`, most significant first. -/
def spelledNumber (d : ℕ → Digit) (n : ℕ) : ℕ :=
  ∑ k ∈ Finset.Icc 1 n, (d k).val * 4 ^ (n - k)

theorem globalRow_eq (x : GridIndex) :
    globalRow x = spelledNumber (fun k => digitRow (levelDigit x k)) 10 := rfl

theorem globalCol_eq (x : GridIndex) :
    globalCol x = spelledNumber (fun k => digitCol (levelDigit x k)) 10 := rfl

theorem spelledNumber_succ (d : ℕ → Digit) (n : ℕ) :
    spelledNumber d (n + 1) = 4 * spelledNumber d n + (d (n + 1)).val := by
  rw [spelledNumber, Finset.sum_Icc_succ_top (by omega), Nat.sub_self, pow_zero, mul_one,
    spelledNumber, Finset.mul_sum]
  congr 1
  refine Finset.sum_congr rfl fun k hk => ?_
  obtain ⟨-, hkn⟩ := Finset.mem_Icc.mp hk
  rw [Nat.succ_sub hkn, pow_succ]
  ring

theorem spelledNumber_lt (d : ℕ → Digit) (n : ℕ) : spelledNumber d n < 4 ^ n := by
  induction n with
  | zero => exact Nat.one_pos
  | succ n ih => rw [spelledNumber_succ, pow_succ]; omega

/-- The digits of the number are the digits it is spelled by. -/
theorem spelledNumber_digit (d : ℕ → Digit) {n k : ℕ} (h1 : 1 ≤ k) (hk : k ≤ n) :
    spelledNumber d n / 4 ^ (n - k) % 4 = (d k).val := by
  induction n, hk using Nat.le_induction with
  | base =>
    obtain ⟨m, rfl⟩ := Nat.exists_eq_add_of_le' h1
    rw [spelledNumber_succ, Nat.sub_self, pow_zero]
    omega
  | succ n hk ih =>
    rw [spelledNumber_succ, Nat.succ_sub hk, pow_succ', ← Nat.div_div_eq_div_mul,
      Nat.mul_add_div (by norm_num), Nat.div_eq_of_lt (d (n + 1)).isLt, Nat.add_zero, ih]

/-- A number is spelled by its base-4 digits. -/
theorem spelledNumber_of_digits {d : ℕ → Digit} {n m : ℕ} (hm : m < 4 ^ n)
    (hd : ∀ k, 1 ≤ k → k ≤ n → (d k).val = m / 4 ^ (n - k) % 4) : spelledNumber d n = m := by
  induction n generalizing m with
  | zero => exact (Nat.lt_one_iff.mp hm).symm
  | succ n ih =>
    have hrest : spelledNumber d n = m / 4 := by
      refine ih (by rw [pow_succ] at hm; omega) fun k h1 hk => ?_
      rw [hd k h1 (by omega), Nat.succ_sub hk, pow_succ', ← Nat.div_div_eq_div_mul]
    have hlast := hd (n + 1) (by omega) le_rfl
    rw [Nat.sub_self, pow_zero, Nat.div_one] at hlast
    rw [spelledNumber_succ, hrest, hlast]
    omega

/-! ### ENCODE in closed form (43_properties R118, R119) -/

theorem southIndex_eq (lat : ℚ) : southIndex lat = axisCell (lat - 5 / 2) 10 :=
  (axisCell_ten _).symm

theorem westIndex_eq (lon : ℚ) : westIndex lon = axisCell (lon - 127 / 2) 10 :=
  (axisCell_ten _).symm

/-- Counting from the other end takes each base-4 digit from 3. -/
theorem digit_of_complement (c : ℤ) {k : ℕ} (h1 : 1 ≤ k) (h10 : k ≤ 10) :
    (2 ^ 20 - 1 - c) / 4 ^ (10 - k) % 4 = 3 - c / 4 ^ (10 - k) % 4 := by
  interval_cases k <;> omega

section
variable {lat lon : ℚ} (h : Accepted lat lon)
include h

theorem southIndex_mem : 0 ≤ southIndex lat ∧ southIndex lat ≤ 2 ^ 20 - 1 := by
  obtain ⟨hsouth, -, -, -⟩ := h
  rw [southIndex_eq]
  exact ⟨axisCell_nonneg (sub_nonneg.mpr hsouth) 10, min_le_right _ _⟩

theorem westIndex_mem : 0 ≤ westIndex lon ∧ westIndex lon ≤ 2 ^ 20 - 1 := by
  obtain ⟨-, -, hwest, -⟩ := h
  rw [westIndex_eq]
  exact ⟨axisCell_nonneg (sub_nonneg.mpr hwest) 10, min_le_right _ _⟩

theorem rowFromNorth_cast : (rowFromNorth lat : ℤ) = 2 ^ 20 - 1 - southIndex lat :=
  Int.toNat_of_nonneg (sub_nonneg.mpr (southIndex_mem h).2)

theorem colFromWest_cast : (colFromWest lon : ℤ) = westIndex lon :=
  Int.toNat_of_nonneg (westIndex_mem h).1

theorem rowFromNorth_lt : rowFromNorth lat < 2 ^ 20 := by
  have hcast := rowFromNorth_cast h
  have hmem := southIndex_mem h
  omega

theorem colFromWest_lt : colFromWest lon < 2 ^ 20 := by
  have hcast := colFromWest_cast h
  have hmem := westIndex_mem h
  omega

end

section
variable {lat lon : ℚ} (h : Accepted lat lon) (hyph : Bool) (s : State) {k : ℕ} (h1 : 1 ≤ k)
  (h10 : k ≤ 10)
include h h1 h10

theorem rowOf_eq_digit : (rowOf (encodeWindow lat lon hyph (k - 1) s) lat).val =
    rowFromNorth lat / 4 ^ (10 - k) % 4 := by
  have hrow := rowOf_encodeWindow h hyph (k - 1) s
  have hcast := rowFromNorth_cast h
  obtain ⟨hsouth, hnorth, -, -⟩ := h
  have hdigit := axisCell_div_pow (x := lat - 5 / 2) (by linarith) (by linarith) k (10 - k)
  rw [Nat.sub_add_cancel h1] at hrow
  rw [Nat.add_sub_cancel' h10, ← southIndex_eq] at hdigit
  zify
  rw [hrow, hcast, digit_of_complement _ h1 h10, hdigit]

theorem colOf_eq_digit : (colOf (encodeWindow lat lon hyph (k - 1) s) lon).val =
    colFromWest lon / 4 ^ (10 - k) % 4 := by
  have hcol := colOf_encodeWindow h hyph (k - 1) s
  have hcast := colFromWest_cast h
  obtain ⟨-, -, hwest, heast⟩ := h
  have hdigit := axisCell_div_pow (x := lon - 127 / 2) (by linarith) (by linarith) k (10 - k)
  rw [Nat.sub_add_cancel h1] at hcol
  rw [Nat.add_sub_cancel' h10, ← westIndex_eq] at hdigit
  zify
  rw [hcol, hcast, hdigit]

/-- The digits of a completed ENCODE are the base-4 digits of the global row and column. -/
theorem levelDigit_rows_and_cols :
    (digitRow (levelDigit (encodeLevels lat lon hyph LEVELS (startEncode s)).work.gidx k)).val =
      rowFromNorth lat / 4 ^ (10 - k) % 4 ∧
    (digitCol (levelDigit (encodeLevels lat lon hyph LEVELS (startEncode s)).work.gidx k)).val =
      colFromWest lon / 4 ^ (10 - k) % 4 := by
  rw [digitRow_encodeLevels lat lon hyph s h1 h10, digitCol_encodeLevels lat lon hyph s h1 h10]
  exact ⟨rowOf_eq_digit h hyph s h1 h10, colOf_eq_digit h hyph s h1 h10⟩

end

/-- A grid digit is its row followed by its column (30_encoding R49). -/
theorem eq_append_row_col (n : BitVec 4) :
    n = BitVec.ofNat 2 (digitRow n).val ++ BitVec.ofNat 2 (digitCol n).val := by
  revert n; decide

/-- Bits `21 - 2k : 20 - 2k` of a number of 20 bits are its base-4 digit of level `k`. -/
theorem extractLsb'_base_four {m k : ℕ} (hm : m < 2 ^ 20) (h10 : k ≤ 10) :
    (BitVec.ofNat 20 m).extractLsb' (20 - 2 * k) 2 = BitVec.ofNat 2 (m / 4 ^ (10 - k) % 4) := by
  apply BitVec.eq_of_toNat_eq
  rw [BitVec.extractLsb'_toNat, BitVec.toNat_ofNat, BitVec.toNat_ofNat, Nat.mod_eq_of_lt hm,
    Nat.shiftRight_eq_div_pow, Nat.mod_mod, show 20 - 2 * k = 2 * (10 - k) by omega, pow_mul]
  rfl

/-- Settles O30: the digits are those of the coordinate's cell on each axis. -/
theorem encodeClosedForm : Obligations.EncodeClosedForm := by
  unfold Obligations.EncodeClosedForm
  intro s lat lon hyph h
  have ⟨hsouth, hnorth, hwest, heast⟩ := h
  obtain ⟨hlat0, hlat1⟩ := southIndex_mem h
  obtain ⟨hlon0, hlon1⟩ := westIndex_mem h
  refine ⟨(last_lt_floor_iff (by linarith)).trans ?_, (last_lt_floor_iff (by linarith)).trans ?_,
    hlat0, hlat1, hlon0, hlon1, _, execEncode_of_accepted h hyph s, rfl, fun k h1 h10 => ?_⟩
  · rw [sub_eq_iff_eq_add]; norm_num
  · rw [sub_eq_iff_eq_add]; norm_num
  · obtain ⟨hrow, hcol⟩ := levelDigit_rows_and_cols h hyph s h1 h10
    refine ⟨hrow, hcol, ?_⟩
    rw [extractLsb'_base_four (rowFromNorth_lt h) h10, extractLsb'_base_four (colFromWest_lt h) h10,
      ← hrow, ← hcol]
    exact eq_append_row_col _

section
variable {lat lon : ℚ} (h : Accepted lat lon) (hyph : Bool) (s : State)
include h

theorem globalRow_encodeLevels :
    globalRow (encodeLevels lat lon hyph LEVELS (startEncode s)).work.gidx = rowFromNorth lat :=
  spelledNumber_of_digits (rowFromNorth_lt h)
    fun _ h1 h10 => (levelDigit_rows_and_cols h hyph s h1 h10).1

theorem globalCol_encodeLevels :
    globalCol (encodeLevels lat lon hyph LEVELS (startEncode s)).work.gidx = colFromWest lon :=
  spelledNumber_of_digits (colFromWest_lt h)
    fun _ h1 h10 => (levelDigit_rows_and_cols h hyph s h1 h10).2

end

section
variable {lat lon : ℚ} (h : Accepted lat lon) {n : ℕ} (hn : n < 2 ^ 20)
include h hn

/-- Which latitudes a row owns. -/
theorem rowFromNorth_eq_iff : rowFromNorth lat = n ↔
    77 / 2 - (n + 1) * cellSide ≤ lat ∧
      (lat < 77 / 2 - n * cellSide ∨ (n = 0 ∧ lat = 77 / 2)) := by
  have hcast := rowFromNorth_cast h
  obtain ⟨-, hnorth, -, -⟩ := h
  have hcell := axisCell_ten_eq_iff (x := lat - 5 / 2) (by linarith)
    (n := 2 ^ 20 - 1 - n) (by omega)
  have hcount : rowFromNorth lat = n ↔ axisCell (lat - 5 / 2) 10 = (2 ^ 20 - 1 - n : ℕ) := by
    rw [← southIndex_eq]; omega
  have hn' : ((2 ^ 20 - 1 - n : ℕ) : ℚ) = 2 ^ 20 - 1 - n := by
    rw [Nat.cast_sub (by omega)]; norm_num
  have hspan : (2 ^ 20 : ℚ) * cellSide = 36 := by norm_num [cellSide]
  rw [hcount, hcell, hn']
  refine and_congr ⟨fun _ => by linarith, fun _ => by linarith⟩ (or_congr
    ⟨fun _ => by linarith, fun _ => by linarith⟩ (and_congr (by omega)
    ⟨fun _ => by linarith, fun _ => by linarith⟩))

/-- Which longitudes a column owns. -/
theorem colFromWest_eq_iff : colFromWest lon = n ↔
    127 / 2 + n * cellSide ≤ lon ∧
      (lon < 127 / 2 + (n + 1) * cellSide ∨ (n = 2 ^ 20 - 1 ∧ lon = 199 / 2)) := by
  have hcast := colFromWest_cast h
  obtain ⟨-, -, -, heast⟩ := h
  have hcell := axisCell_ten_eq_iff (x := lon - 127 / 2) (by linarith) hn
  rw [← Nat.cast_inj (R := ℤ), hcast, westIndex_eq, hcell]
  refine and_congr ⟨fun _ => by linarith, fun _ => by linarith⟩ (or_congr
    ⟨fun _ => by linarith, fun _ => by linarith⟩ (and_congr_right fun _ =>
    ⟨fun _ => by linarith, fun _ => by linarith⟩))

end

/-- Settles O29: the digits spell the one row and the one column that own the coordinate. -/
theorem cellOwnsItsSouthWestEdges : Obligations.CellOwnsItsSouthWestEdges := by
  unfold Obligations.CellOwnsItsSouthWestEdges
  intro s lat lon hyph h
  refine ⟨_, execEncode_of_accepted h hyph s, ?_⟩
  rw [respondOk_work, globalRow_encodeLevels h, globalCol_encodeLevels h]
  refine ⟨rowFromNorth_lt h, colFromWest_lt h, fun R C hR hC => ?_⟩
  rw [rowFromNorth_eq_iff h hR, colFromWest_eq_iff h hC, and_assoc]

end Sys2Proof.Machine
end

section
/-! DECODE in closed form (43_properties R120, R123, R124), and codes by their grid index. -/

namespace Sys2Proof.Machine

open Sys2Proof Sys2Proof.Claims

/-! ### The final window by the global row and column (43_properties R120) -/

/-- The level-10 cell of row `R`, counted from the north, and column `C`, from the west. -/
def cellAt (R C : ℕ) : Window where
  minLat := 77 / 2 - (R + 1) * cellSide
  maxLat := 77 / 2 - R * cellSide
  minLon := 127 / 2 + C * cellSide
  maxLon := 127 / 2 + (C + 1) * cellSide

theorem OnLattice.eq_cellAt {w : Window} (h : OnLattice 10 w) {R C : ℕ}
    (hnorth : w.maxLat = 77 / 2 - R * cellSide) (hwest : w.minLon = 127 / 2 + C * cellSide) :
    w = cellAt R C := by
  obtain ⟨hlat, hlon⟩ := h.far_edges
  obtain ⟨south, north, west, east⟩ := w
  simp only at hnorth hwest hlat hlon
  simp only [cellAt, Window.mk.injEq]
  exact ⟨by linarith, hnorth, hwest, by linarith⟩

/-- The centre of a cell, as fractions of one denominator. -/
theorem cellAt_centre (R C : ℕ) :
    ((cellAt R C).minLat + (cellAt R C).maxLat) / 2 = (20185088 - 9 * (2 * R + 1)) / 524288 ∧
      ((cellAt R C).minLon + (cellAt R C).maxLon) / 2 =
        (33292288 + 9 * (2 * C + 1)) / 524288 := by
  simp only [cellAt, cellSide]
  constructor <;> ring

/-- After each level the digits looked up so far count the window from the north-west corner. -/
theorem decodeLevels_corner_of_digits {symbols : List Ch} {s t : State} {row col : ℕ → Digit}
    (hdigits : ∀ j, j < symbols.length →
      (symbols[j]?).bind (inv s.cfg.grid) = some (row (j + 1), col (j + 1)))
    (h : decodeLevels symbols (startDecode s) = .ok t) :
    t.work.window.maxLat = 77 / 2 - spelledNumber row symbols.length * (36 / 4 ^ symbols.length) ∧
      t.work.window.minLon =
        127 / 2 + spelledNumber col symbols.length * (36 / 4 ^ symbols.length) := by
  induction symbols using List.reverseRecOn generalizing t with
  | nil => cases h; norm_num [BR, spelledNumber]
  | append_singleton l ch ih =>
    obtain ⟨u, cell, hu, hcell, rfl⟩ := decodeLevels_append_singleton_ok h
    obtain ⟨hlat, hlon⟩ := ih (fun j hj => by
      rw [← hdigits j (by simp; omega), List.getElem?_append_left hj]) hu
    have hdigit := hdigits l.length (by simp)
    rw [startDecode_cfg] at hcell
    rw [List.getElem?_concat_length, Option.bind_some, hcell, Option.some.injEq] at hdigit
    have hwindow := decodeLevels_onLattice_length hu
    rw [decodeLevel_window, narrowDown, hwindow.latDiv_eq, hwindow.lonDiv_eq, hlat, hlon, hdigit,
      List.length_append, List.length_singleton, spelledNumber_succ, spelledNumber_succ, pow_succ]
    push_cast
    constructor <;> ring

/-- A code whose symbols are those of ten digits decodes to the centre of the cell they name. -/
theorem execDecode_of_digits {code : List Ch} {s : State} {row col : ℕ → Digit}
    (hlen : (strip code).length = 10)
    (hdigits : ∀ k, 1 ≤ k → k ≤ 10 →
      ((strip code)[k - 1]?).bind (inv s.cfg.grid) = some (row k, col k)) :
    ∃ t, execDecode code s = .next (respondOk (writeCentroid t)) ∧
      t.work.window = cellAt (spelledNumber row 10) (spelledNumber col 10) := by
  have hdigits' : ∀ j, j < (strip code).length →
      ((strip code)[j]?).bind (inv s.cfg.grid) = some (row (j + 1), col (j + 1)) :=
    fun j hj => hdigits (j + 1) (by omega) (by omega)
  have hsymbols : ∀ ch ∈ strip code, inv s.cfg.grid ch ≠ none :=
    forall_bind_inv_iff_forall_mem.mp fun j hj => by rw [hdigits' j hj]; nofun
  obtain ⟨t, ht⟩ := decodeLevels_of_all_symbols (startDecode (writeCanon code s)) hsymbols
  obtain ⟨hnorth, hwest⟩ := decodeLevels_corner_of_digits (s := writeCanon code s) hdigits' ht
  have hcell := decodeLevels_onLattice_length ht
  rw [hlen, side_ten] at hnorth hwest
  rw [hlen] at hcell
  exact ⟨t, execDecode_of_levels_ok hlen ht, hcell.eq_cellAt hnorth hwest⟩

/-- Settles O39: the digits name the cell, and its centre is half-way between its edges. -/
theorem decodeClosedForm : Obligations.DecodeClosedForm := by
  unfold Obligations.DecodeClosedForm
  intro s code row col hlen hdigits
  obtain ⟨t, ht, hwindow⟩ := execDecode_of_digits hlen hdigits
  obtain ⟨hlat, hlon⟩ := cellAt_centre (spelledNumber row 10) (spelledNumber col 10)
  refine ⟨_, ht, rfl, ?_⟩
  simp only [respondOk_work, writeCentroid_work, respondOk_latC, respondOk_lonC,
    writeCentroid_latC, writeCentroid_lonC, hwindow]
  refine ⟨rfl, rfl, rfl, rfl, ?_, hlat, ?_, hlon⟩
  · rw [hlat, cellSide, spelledNumber]; ring
  · rw [hlon, cellSide, spelledNumber]; ring

/-! ### No ties (43_properties R123) -/

/-- Off the ties one integer is within one half, the rounding. -/
theorem abs_sub_le_half_iff {x : ℚ} (h : ∀ n : ℤ, x ≠ n + 1 / 2) (n : ℤ) :
    |x - n| ≤ 1 / 2 ↔ n = round x := by
  constructor
  · intro hnear
    obtain ⟨hlow, hhigh⟩ := abs_le.mp hnear
    have hne : x ≠ n + 1 / 2 := h n
    rw [round_eq, eq_comm, Int.floor_eq_iff]
    exact ⟨by linarith, by linarith [lt_of_le_of_ne (sub_le_iff_le_add'.mp hhigh) hne]⟩
  · rintro rfl
    exact abs_sub_round x

/-- An odd multiple of `9/2^19` beyond half a degree is no tie at six decimals: doubled, the tie
would make an odd number even. -/
theorem centre_ne_tie {q : ℚ} {m a : ℤ} (h : q = m / 2 + (2 * a + 1) * (9 / 2 ^ 19)) (n : ℤ) :
    q * 10 ^ 6 ≠ n + 1 / 2 := by
  intro htie
  have hodd : m * 4096000000 + (2 * a + 1) * 140625 = n * 8192 + 4096 := by
    rw [h] at htie
    have : (m : ℚ) * 4096000000 + (2 * a + 1) * 140625 = n * 8192 + 4096 := by linarith
    exact_mod_cast this
  omega

theorem OnLattice.centre_ne_tie {w : Window} (h : OnLattice 10 w) (n : ℤ) :
    (w.minLat + w.maxLat) / 2 * 10 ^ 6 ≠ n + 1 / 2 ∧
      (w.minLon + w.maxLon) / 2 * 10 ^ 6 ≠ n + 1 / 2 := by
  obtain ⟨a, b, -, -, hsouth, hnorth, hwest, heast⟩ := h
  rw [hnorth, heast, hsouth, hwest]
  exact ⟨Machine.centre_ne_tie (m := 5) (a := a) (by push_cast; ring) n,
    Machine.centre_ne_tie (m := 127) (a := b) (by push_cast; ring) n⟩

/-- The integers that DECODE writes are the roundings of the centroid. -/
theorem OnLattice.udeg_eq_round {t : State} (h : OnLattice 10 t.work.window) :
    ((writeCentroid t).res.latUdeg.toNat : ℤ) = round ((writeCentroid t).res.latC * 10 ^ 6) ∧
      ((writeCentroid t).res.lonUdeg.toNat : ℤ) = round ((writeCentroid t).res.lonC * 10 ^ 6) := by
  obtain ⟨hlat, hlon⟩ := writeCentroid_udeg_toNat h
  have hside := cellSide_pos
  rw [hlat, hlon]
  exact ⟨round6_eq_round (by rw [writeCentroid_latC]; linarith [h.latCentre_mem.1]),
    round6_eq_round (by rw [writeCentroid_lonC]; linarith [h.lonCentre_mem.1])⟩

/-- Settles O40: off the ties the rounding is the one nearest integer. -/
theorem noRoundingTies : Obligations.NoRoundingTies := by
  unfold Obligations.NoRoundingTies
  intro s code hvalid
  obtain ⟨t, ht, -, hcell⟩ := execDecode_of_validCode hvalid
  obtain ⟨hlat, hlon⟩ := hcell.udeg_eq_round
  refine ⟨_, ht, rfl, hcell.centre_ne_tie, fun n => ?_, fun n => ?_⟩
  · exact (abs_sub_le_half_iff (fun n => (hcell.centre_ne_tie n).1) n).trans (hlat ▸ Iff.rfl)
  · exact (abs_sub_le_half_iff (fun n => (hcell.centre_ne_tie n).2) n).trans (hlon ▸ Iff.rfl)

/-! ### The range of the results (43_properties R124) -/

theorem render6_length {n : ℕ} (h : n < 10 ^ 8) :
    (render6 n).length = if n < 10 * 10 ^ 6 then 8 else 9 := by
  rw [renderedDigits.1 n (by omega)]
  by_cases hone : n / 1000000 < 10
  · rw [if_pos hone, if_pos (by omega)]; rfl
  · rw [if_neg hone, if_neg (by omega)]; rfl

theorem gridAt_ne_sep {g : SymbolGrid} (hg : gridAdmissible g = true) (row col : Digit) :
    gridAt g row col ≠ SEP := by
  obtain ⟨-, hsep, -, -⟩ := (admissibleGridConditions.1 g).mp hg
  exact hsep row col

/-- Ten times one symbol: the same digit at every level. -/
theorem execDecode_replicate {s : State} (hg : gridAdmissible s.cfg.grid = true)
    (row col : Digit) :
    ∃ t, execDecode (List.replicate 10 (gridAt s.cfg.grid row col)) s =
        .next (respondOk (writeCentroid t)) ∧
      t.work.window =
        cellAt (spelledNumber (fun _ => row) 10) (spelledNumber (fun _ => col) 10) := by
  have hstrip := strip_of_not_mem (s := List.replicate 10 (gridAt s.cfg.grid row col))
    fun hmem => gridAt_ne_sep hg row col (List.eq_of_mem_replicate hmem).symm
  refine execDecode_of_digits (by rw [hstrip, List.length_replicate]) fun k h1 h10 => ?_
  rw [hstrip, List.getElem?_replicate_of_lt (by omega), Option.bind_some,
    (inv_eq_some_iff hg).mpr rfl]

/-- Settles O41: the bounds are those of a level-10 cell, met by the two corner cells. -/
theorem decodeResultRange : Obligations.DecodeResultRange := by
  unfold Obligations.DecodeResultRange
  refine ⟨fun s code hvalid => ?_, fun s hg => ?_⟩
  · obtain ⟨t, ht, -, hcell⟩ := execDecode_of_validCode hvalid
    obtain ⟨hlat0, hlat1, hlon0, hlon1, hlatStr, hlonStr⟩ :=
      responseLegal_writeCentroid s.cfg.grid hcell
    refine ⟨_, ht, rfl, hcell.latCentre_mem.1, hcell.latCentre_mem.2, hcell.lonCentre_mem.1,
      hcell.lonCentre_mem.2, hlat0, hlat1, hlon0, hlon1, ?_, ?_⟩
    · rw [respondOk_latStr, hlatStr, render6_length (by omega)]
      rfl
    · rw [respondOk_lonStr, hlonStr, render6_length (by omega), if_neg (by omega)]
  · obtain ⟨t, ht, hnw⟩ := execDecode_replicate hg 0 0
    obtain ⟨u, hu, hse⟩ := execDecode_replicate hg 3 3
    refine ⟨_, _, ht, hu, ?_⟩
    simp only [respondOk_latC, respondOk_lonC, respondOk_latUdeg, respondOk_lonUdeg,
      writeCentroid_latC, writeCentroid_lonC, writeCentroid_latUdeg, writeCentroid_lonUdeg,
      hnw, hse]
    decide +kernel

/-! ### Codes and grid indexes (43_properties R122) -/

/-- A grid index is its ten digits. -/
theorem gridIndex_ext {x y : GridIndex}
    (h : ∀ k, 1 ≤ k → k ≤ 10 → levelDigit x k = levelDigit y k) : x = y := by
  refine BitVec.eq_of_getLsbD_eq fun i hi => ?_
  have hdigit := congrArg (BitVec.getLsbD · (i % 4)) (h (10 - i / 4) (by omega) (by omega))
  have hlt : i % 4 < 4 := Nat.mod_lt i (by norm_num)
  have hbit : 40 - 4 * (10 - i / 4) + i % 4 = i := by omega
  simpa [levelDigit, BitVec.getLsbD_extractLsb', hlt, hbit] using hdigit

theorem digitRow_digitCol_ext {m n : BitVec 4} (hrow : digitRow m = digitRow n)
    (hcol : digitCol m = digitCol n) : m = n := by
  rw [eq_append_row_col m, eq_append_row_col n, hrow, hcol]

/-- A grid index is the pair of its global row and column. -/
theorem gridIndex_ext_row_col {x y : GridIndex} (hrow : globalRow x = globalRow y)
    (hcol : globalCol x = globalCol y) : x = y := by
  refine gridIndex_ext fun k h1 h10 => digitRow_digitCol_ext (Fin.ext ?_) (Fin.ext ?_)
  · rw [← spelledNumber_digit (fun k => digitRow (levelDigit x k)) h1 h10,
      ← spelledNumber_digit (fun k => digitRow (levelDigit y k)) h1 h10, ← globalRow_eq,
      ← globalRow_eq, hrow]
  · rw [← spelledNumber_digit (fun k => digitCol (levelDigit x k)) h1 h10,
      ← spelledNumber_digit (fun k => digitCol (levelDigit y k)) h1 h10, ← globalCol_eq,
      ← globalCol_eq, hcol]

theorem symbolsOf_getElem? (g : SymbolGrid) (x : GridIndex) {k : ℕ} (h1 : 1 ≤ k) (h10 : k ≤ 10) :
    (symbolsOf g x)[k - 1]? =
      some (gridAt g (digitRow (levelDigit x k)) (digitCol (levelDigit x k))) := by
  have hlt : k - 1 < 10 := by omega
  simp [symbolsOf, CODE_SYMS, hlt, Nat.sub_add_cancel h1]

section
variable {g : SymbolGrid} (hg : gridAdmissible g = true)
include hg

theorem symbolsOf_bind_inv (x : GridIndex) {k : ℕ} (h1 : 1 ≤ k) (h10 : k ≤ 10) :
    ((symbolsOf g x)[k - 1]?).bind (inv g) =
      some (digitRow (levelDigit x k), digitCol (levelDigit x k)) := by
  rw [symbolsOf_getElem? g x h1 h10, Option.bind_some, (inv_eq_some_iff hg).mpr rfl]

theorem strip_symbolsOf (x : GridIndex) : strip (symbolsOf g x) = symbolsOf g x :=
  strip_of_not_mem (sep_not_mem_symbolsOf hg x)

theorem validCode_symbolsOf (x : GridIndex) : ValidCode g (symbolsOf g x) := by
  rw [validCode_iff_forall_bind_inv, strip_symbolsOf hg]
  refine ⟨symbolsOf_length g x, fun i hi => ?_⟩
  have hdigit := symbolsOf_bind_inv hg x (k := i + 1) (by omega) (by omega)
  rw [Nat.add_sub_cancel] at hdigit
  rw [hdigit]
  nofun

theorem symbolsOf_injective {x y : GridIndex} (h : symbolsOf g x = symbolsOf g y) : x = y := by
  refine gridIndex_ext fun k h1 h10 => ?_
  have hcell := symbolsOf_bind_inv hg x h1 h10
  rw [h, symbolsOf_bind_inv hg y h1 h10, Option.some.injEq, Prod.mk.injEq] at hcell
  obtain ⟨hrow, hcol⟩ := hcell
  exact digitRow_digitCol_ext hrow.symm hcol.symm

end

/-- Symbols are shifted into a grid index one by one. -/
theorem exists_lastSymbols {g : SymbolGrid} {l : List Ch} (hlen : l.length ≤ 10)
    (hsymbols : ∀ ch ∈ l, inv g ch ≠ none) : ∃ x, lastSymbols g l.length x = l := by
  induction l using List.reverseRecOn with
  | nil => exact ⟨0, rfl⟩
  | append_singleton l ch ih =>
    rw [List.length_append, List.length_singleton] at hlen ⊢
    obtain ⟨x, hx⟩ := ih (by omega) fun c hc => hsymbols c (List.mem_append_left _ hc)
    rcases inv_cases g ch with ⟨row, col, -, hcell⟩ | ⟨hnone, -⟩
    · refine ⟨x * 16 + BitVec.ofNat 40 (digitValue row col), ?_⟩
      rw [lastSymbols_shiftIn g (by omega), hx, hcell]
    · exact absurd hnone (hsymbols ch (by simp))

theorem exists_symbolsOf {g : SymbolGrid} {code : List Ch} (h : ValidCode g code) :
    ∃ x, symbolsOf g x = strip code := by
  obtain ⟨hlen, hsymbols⟩ := h
  obtain ⟨x, hx⟩ := exists_lastSymbols hlen.le hsymbols
  exact ⟨x, by rwa [hlen, lastSymbols_ten] at hx⟩

/-- The code of a grid index decodes to the centre of the cell of its global row and column. -/
theorem execDecode_of_symbolsOf {code : List Ch} {s : State} {x : GridIndex}
    (hg : gridAdmissible s.cfg.grid = true) (h : symbolsOf s.cfg.grid x = strip code) :
    ∃ t, execDecode code s = .next (respondOk (writeCentroid t)) ∧
      t.work.window = cellAt (globalRow x) (globalCol x) := by
  refine execDecode_of_digits (by rw [← h, symbolsOf_length]) fun k h1 h10 => ?_
  rw [← h]
  exact symbolsOf_bind_inv hg x h1 h10

end Sys2Proof.Machine
end

section
/-! The round trips from a coordinate and from a code (43_properties R121, R122). -/

namespace Sys2Proof.Machine

open Sys2Proof Sys2Proof.Claims

/-! ### From a coordinate to its code and back (43_properties R121) -/

/-- The middle of a segment is within half its length of a point on it, and that far only from its
ends. -/
theorem abs_middle_sub {lo hi x d : ℚ} (hd : hi = lo + d) (hlo : lo ≤ x) (hhi : x ≤ hi) :
    |(lo + hi) / 2 - x| ≤ d / 2 ∧ (|(lo + hi) / 2 - x| = d / 2 ↔ x = lo ∨ x = hi) := by
  subst hd
  refine ⟨abs_le.mpr ⟨by linarith, by linarith⟩, ?_⟩
  rw [abs_eq (by linarith)]
  exact or_congr ⟨fun _ => by linarith, fun _ => by linarith⟩
    ⟨fun _ => by linarith, fun _ => by linarith⟩

/-- Inside a cell only its edges are a whole number of cells from the origin. -/
theorem on_edge_iff {origin lo x : ℚ} {a : ℕ} (ha : lo = origin + a * cellSide) (hlo : lo ≤ x)
    (hhi : x ≤ lo + cellSide) :
    (x = lo ∨ x = lo + cellSide) ↔ ∃ n : ℤ, (x - origin) / cellSide = n := by
  have hside := cellSide_pos
  constructor
  · rintro (hx | hx)
    · exact ⟨a, by rw [div_eq_iff hside.ne', hx, ha]; push_cast; ring⟩
    · exact ⟨a + 1, by rw [div_eq_iff hside.ne', hx, ha]; push_cast; ring⟩
  · rintro ⟨n, hn⟩
    rw [div_eq_iff hside.ne'] at hn
    have hlow : (a : ℤ) ≤ n := by
      have : (a : ℚ) ≤ n := le_of_mul_le_mul_right (by linarith) hside
      exact_mod_cast this
    have hhigh : n ≤ a + 1 := by
      have : (n : ℚ) ≤ a + 1 := le_of_mul_le_mul_right (by linarith) hside
      exact_mod_cast this
    rcases (by omega : n = a ∨ n = a + 1) with rfl | rfl
    · left; push_cast at hn; linarith
    · right; push_cast at hn; linarith

/-- The centre of the cell of a coordinate is within half a cell of it. -/
theorem HoldsPoint.centre_near {lat lon : ℚ} {w : Window} (h : HoldsPoint lat lon w)
    (hw : OnLattice 10 w) :
    |(w.minLat + w.maxLat) / 2 - lat| ≤ cellSide / 2 ∧
    |(w.minLon + w.maxLon) / 2 - lon| ≤ cellSide / 2 ∧
    (|(w.minLat + w.maxLat) / 2 - lat| = cellSide / 2 ↔
      ∃ n : ℤ, (lat - 5 / 2) / cellSide = n) ∧
    (|(w.minLon + w.maxLon) / 2 - lon| = cellSide / 2 ↔
      ∃ n : ℤ, (lon - 127 / 2) / cellSide = n) := by
  obtain ⟨hsouth, hnorth, hwest, heast⟩ := h
  obtain ⟨hlatSide, hlonSide⟩ := hw.far_edges
  obtain ⟨a, b, -, -, ha, -, hb, -⟩ := hw
  rw [side_ten] at ha hb
  obtain ⟨hlat, hlatEdge⟩ := abs_middle_sub hlatSide hsouth hnorth
  obtain ⟨hlon, hlonEdge⟩ := abs_middle_sub hlonSide hwest heast
  rw [hlatSide] at hnorth hlatEdge ⊢
  rw [hlonSide] at heast hlonEdge ⊢
  exact ⟨hlatSide ▸ hlat, hlonSide ▸ hlon, hlatEdge.trans (on_edge_iff ha hsouth hnorth),
    hlonEdge.trans (on_edge_iff hb hwest heast)⟩

theorem abs_sub_round_lt {x : ℚ} (h : ∀ n : ℤ, x ≠ n + 1 / 2) : |x - round x| < 1 / 2 := by
  refine lt_of_le_of_ne (abs_sub_round x) fun heq => ?_
  rcases (abs_eq (by norm_num)).mp heq with hx | hx
  · exact h (round x) (by linarith)
  · exact h (round x - 1) (by push_cast; linarith)

/-- What is rendered from a rounding without ties is nearer than half a micro-degree. -/
theorem abs_render_sub_lt {q : ℚ} {n : ℕ} (h : ∀ m : ℤ, q * 10 ^ 6 ≠ m + 1 / 2)
    (hn : (n : ℤ) = round (q * 10 ^ 6)) : |(n : ℚ) / 10 ^ 6 - q| < 5 / 10 ^ 7 := by
  have hnear := abs_lt.mp (abs_sub_round_lt h)
  rw [← hn, Int.cast_natCast] at hnear
  obtain ⟨hlow, hhigh⟩ := hnear
  exact abs_lt.mpr ⟨by linarith, by linarith⟩

theorem OnLattice.render_near {t : State} (h : OnLattice 10 t.work.window) :
    |((writeCentroid t).res.latUdeg.toNat : ℚ) / 10 ^ 6 - (writeCentroid t).res.latC| <
        5 / 10 ^ 7 ∧
      |((writeCentroid t).res.lonUdeg.toNat : ℚ) / 10 ^ 6 - (writeCentroid t).res.lonC| <
        5 / 10 ^ 7 :=
  ⟨abs_render_sub_lt (fun m => (h.centre_ne_tie m).1) h.udeg_eq_round.1,
    abs_render_sub_lt (fun m => (h.centre_ne_tie m).2) h.udeg_eq_round.2⟩

theorem abs_sub_lt_add {x y z d e : ℚ} (hxy : |x - y| < e) (hyz : |y - z| ≤ d) :
    |x - z| < d + e := by
  linarith [abs_sub_le x y z]

/-- The operand on which the bound with `<` fails: two cells from the south-west corner. -/
theorem edgeExample_accepted : Accepted (5 / 2 + 2 * cellSide) (127 / 2 + 2 * cellSide) := by
  norm_num [Accepted, cellSide]

theorem edgeExample_window (hyph : Bool) (s : State) :
    encodeWindow (5 / 2 + 2 * cellSide) (127 / 2 + 2 * cellSide) hyph LEVELS s =
      cellAt (2 ^ 20 - 3) 2 := by
  rw [encodeWindow_congr _ _ hyph false LEVELS s State.reset]
  decide +kernel

/-- Settles O42: DECODE renders the centre of the cell that ENCODE leaves around the coordinate. -/
theorem coordinateRoundTrip : Obligations.CoordinateRoundTrip := by
  unfold Obligations.CoordinateRoundTrip
  refine ⟨fun s s' lat lon hyph hg hcfg h => ?_, fun s hyph hg => ?_⟩
  · obtain ⟨v, hv, hwindow⟩ := execDecode_encodeLevels_codeOut lat lon hyph hg hcfg
    have hcell : OnLattice 10 v.work.window :=
      hwindow ▸ encodeWindow_onLattice lat lon hyph LEVELS s
    have hpoint : HoldsPoint lat lon v.work.window :=
      hwindow ▸ encodeWindow_holdsPoint h hyph LEVELS s
    obtain ⟨hlat, hlon, hlatEdge, hlonEdge⟩ := hpoint.centre_near hcell
    obtain ⟨hlatUdeg, hlonUdeg⟩ := hcell.render_near
    exact ⟨_, _, execEncode_of_accepted h hyph s, hv, rfl, hlat, hlon,
      abs_sub_lt_add hlatUdeg hlat, abs_sub_lt_add hlonUdeg hlon, hlatEdge, hlonEdge⟩
  · obtain ⟨t, v, ht, -, hv, hwindow⟩ := exec_decode_of_exec_encode edgeExample_accepted hyph hg
    rw [edgeExample_window] at hwindow
    refine ⟨t, _, ht, hv, ?_⟩
    rw [respondOk_latUdeg, writeCentroid_latUdeg, hwindow]
    decide +kernel

/-! ### From a code to its centroid and back (43_properties R122) -/

theorem onLattice_cellAt {R C : ℕ} (hR : R < 2 ^ 20) (hC : C < 2 ^ 20) :
    OnLattice 10 (cellAt R C) := by
  have hR' : ((2 ^ 20 - 1 - R : ℕ) : ℚ) = 2 ^ 20 - 1 - R := by
    rw [Nat.cast_sub (by omega)]; norm_num
  refine ⟨2 ^ 20 - 1 - R, C, by omega, by omega, ?_⟩
  rw [hR']
  simp only [cellAt, cellSide]
  refine ⟨?_, ?_, ?_, ?_⟩ <;> ring

/-- A point nearer than half a cell to the centre of a cell is accepted, and in that cell. -/
theorem cellAt_owns {lat lon : ℚ} {R C : ℕ} (hR : R < 2 ^ 20) (hC : C < 2 ^ 20)
    (hlat : |lat - ((cellAt R C).minLat + (cellAt R C).maxLat) / 2| < cellSide / 2)
    (hlon : |lon - ((cellAt R C).minLon + (cellAt R C).maxLon) / 2| < cellSide / 2) :
    Accepted lat lon ∧ rowFromNorth lat = R ∧ colFromWest lon = C := by
  simp only [cellAt, abs_lt] at hlat hlon
  obtain ⟨hsouth, hnorth⟩ := hlat
  obtain ⟨hwest, heast⟩ := hlon
  have hside : cellSide = 9 / 262144 := rfl
  have hR' : (R : ℚ) + 1 ≤ 2 ^ 20 := by exact_mod_cast hR
  have hC' : (C : ℚ) + 1 ≤ 2 ^ 20 := by exact_mod_cast hC
  have hR0 : (0 : ℚ) ≤ R := R.cast_nonneg
  have hC0 : (0 : ℚ) ≤ C := C.cast_nonneg
  have h : Accepted lat lon := by
    rw [hside] at hsouth hnorth hwest heast
    exact ⟨by linarith, by linarith, by linarith, by linarith⟩
  exact ⟨h, (rowFromNorth_eq_iff h hR).mpr ⟨by linarith, .inl (by linarith)⟩,
    (colFromWest_eq_iff h hC).mpr ⟨by linarith, .inl (by linarith)⟩⟩

theorem globalRow_lt (x : GridIndex) : globalRow x < 2 ^ 20 :=
  spelledNumber_lt (fun k => digitRow (levelDigit x k)) 10

theorem globalCol_lt (x : GridIndex) : globalCol x < 2 ^ 20 :=
  spelledNumber_lt (fun k => digitCol (levelDigit x k)) 10

/-- ENCODE of a point near the centre of the cell of a grid index spells that index. -/
theorem execEncode_near_centre {x : GridIndex} {lat lon : ℚ} {w : Window}
    (hw : w = cellAt (globalRow x) (globalCol x))
    (hlat : |lat - (w.minLat + w.maxLat) / 2| < cellSide / 2)
    (hlon : |lon - (w.minLon + w.maxLon) / 2| < cellSide / 2) (hyph : Bool) (s : State) :
    ∃ t, execEncode (.fin lat) (.fin lon) hyph s = .next t ∧ t.res.status = 0 ∧
      t.work.codeOut = rendered hyph (symbolsOf s.cfg.grid x) := by
  subst hw
  obtain ⟨h, hrow, hcol⟩ := cellAt_owns (globalRow_lt x) (globalCol_lt x) hlat hlon
  have hgidx : (encodeLevels lat lon hyph LEVELS (startEncode s)).work.gidx = x :=
    gridIndex_ext_row_col ((globalRow_encodeLevels h hyph s).trans hrow)
      ((globalCol_encodeLevels h hyph s).trans hcol)
  refine ⟨_, execEncode_of_accepted h hyph s, rfl, ?_⟩
  rw [respondOk_work, encodeLevels_codeOut_ten, hgidx]

/-- Distinct cells have distinct centres. -/
theorem cellAt_centre_injective {R C R' C' : ℕ}
    (hlat : ((cellAt R C).minLat + (cellAt R C).maxLat) / 2 =
      ((cellAt R' C').minLat + (cellAt R' C').maxLat) / 2)
    (hlon : ((cellAt R C).minLon + (cellAt R C).maxLon) / 2 =
      ((cellAt R' C').minLon + (cellAt R' C').maxLon) / 2) : R = R' ∧ C = C' := by
  rw [(cellAt_centre R C).1, (cellAt_centre R' C').1] at hlat
  rw [(cellAt_centre R C).2, (cellAt_centre R' C').2] at hlon
  have hR : (R : ℚ) = R' := by linarith
  have hC : (C : ℚ) = C' := by linarith
  exact ⟨by exact_mod_cast hR, by exact_mod_cast hC⟩

/-- Settles O43: the grid index of the code names its cell, which holds both centroids. -/
theorem codeRoundTrip : Obligations.CodeRoundTrip := by
  unfold Obligations.CodeRoundTrip
  refine ⟨fun s s' code hyph hg hcfg hvalid => ?_, fun s code code' hg hvalid hvalid' hne => ?_,
    fun g hg => ⟨fun x => ⟨validCode_symbolsOf hg x, strip_symbolsOf hg x⟩,
      fun x y => symbolsOf_injective hg, fun code => exists_symbolsOf⟩⟩
  · obtain ⟨x, hx⟩ := exists_symbolsOf hvalid
    obtain ⟨v, hv, hwindow⟩ := execDecode_of_symbolsOf hg hx
    have hcell : OnLattice 10 v.work.window :=
      hwindow ▸ onLattice_cellAt (globalRow_lt x) (globalCol_lt x)
    have hside : (5 : ℚ) / 10 ^ 7 < cellSide / 2 := by norm_num [cellSide]
    obtain ⟨hlat, hlon⟩ := hcell.render_near
    obtain ⟨t, ht, htok, htcode⟩ :=
      execEncode_near_centre hwindow (hlat.trans hside) (hlon.trans hside) hyph s'
    obtain ⟨r, hr, hrok, hrcode⟩ := execEncode_near_centre hwindow
      (lat := (v.work.window.minLat + v.work.window.maxLat) / 2)
      (lon := (v.work.window.minLon + v.work.window.maxLon) / 2)
      (by norm_num [cellSide]) (by norm_num [cellSide]) hyph s'
    rw [hcfg, hx] at htcode hrcode
    exact ⟨_, t, r, hv, rfl, ht, htok, htcode, hr, hrok, hrcode⟩
  · obtain ⟨x, hx⟩ := exists_symbolsOf hvalid
    obtain ⟨x', hx'⟩ := exists_symbolsOf hvalid'
    obtain ⟨v, hv, hwindow⟩ := execDecode_of_symbolsOf hg hx
    obtain ⟨v', hv', hwindow'⟩ := execDecode_of_symbolsOf hg hx'
    refine ⟨_, _, hv, hv', fun hsame => hne ?_⟩
    simp only [respondOk_latC, respondOk_lonC, writeCentroid_latC, writeCentroid_lonC, hwindow,
      hwindow', Prod.mk.injEq] at hsame
    obtain ⟨hrow, hcol⟩ := cellAt_centre_injective hsame.1 hsame.2
    rw [← hx, ← hx', gridIndex_ext_row_col hrow hcol]

end Sys2Proof.Machine
end

section
/-! What does not matter to a response, the separators and the history (43_properties R128, R113),
and the examples (R125 to R127, R129). -/

namespace Sys2Proof.Machine

open Sys2Proof Sys2Proof.Claims

/-! ### Separators (43_properties R128) -/

theorem strip_rendered_strip (hyph : Bool) (code : List Ch) :
    strip (rendered hyph (strip code)) = strip code :=
  strip_rendered hyph (sep_not_mem_strip code)

theorem execDecode_congr_strip {code code' : List Ch} (h : strip code = strip code') (s : State) :
    execDecode code s = execDecode code' s := by
  rw [← execDecode_strip code, h, execDecode_strip]

theorem execIsValid_congr_strip {code code' : List Ch} (h : strip code = strip code') (s : State) :
    execIsValid code s = execIsValid code' s := by
  rw [← execIsValid_strip code, h, execIsValid_strip]

/-- Settles O48: both operations read the canonical form, which rendering keeps. -/
theorem separatorsDoNotMatter : Obligations.SeparatorsDoNotMatter := by
  unfold Obligations.SeparatorsDoNotMatter
  refine ⟨fun s code code' h => ⟨execDecode_congr_strip h s, execIsValid_congr_strip h s⟩,
    fun s code _ hvalid hyph => ?_⟩
  have hstrip := strip_rendered_strip hyph code
  obtain ⟨t, ht, -⟩ := execDecode_of_validCode hvalid
  exact ⟨_, _, _, (execIsValid_congr_strip hstrip s).trans (execIsValid_eq code s),
    verdict_iff_validCode.mpr hvalid, (execDecode_congr_strip hstrip s).trans ht, rfl, ht, rfl⟩

/-! ### History (43_properties R113) -/

/-- Settles O49: two steps accept the command and answer it as a unit just reset does. -/
theorem responseDependsOnCommandAlone : Obligations.ResponseDependsOnCommandAlone := by
  unfold Obligations.ResponseDependsOnCommandAlone
  intro s c hs hop
  obtain ⟨t, ht, -, -, -, hresponse, hsome⟩ :=
    run_two_of_waiting (s := presenting c s) hs rfl hop
  exact ⟨t, ht, hresponse, hsome⟩

/-! ### Examples (43_properties R125 to R127, R129) -/

theorem northEastCorner_accepted : Accepted (77 / 2) (199 / 2) := by
  norm_num [Accepted]

theorem northEastCorner_gidx (hyph : Bool) (s : State) :
    (encodeLevels (77 / 2) (199 / 2) hyph LEVELS (startEncode s)).work.gidx = 0x3333333333 := by
  rw [encodeLevels_gidx_congr _ _ hyph false LEVELS s State.reset]
  decide +kernel

/-- Settles O31: the corner stays on the north and on the east edge of every window. -/
theorem boundaryClampExample : Obligations.BoundaryClampExample := by
  unfold Obligations.BoundaryClampExample
  intro s hyph
  refine ⟨_, execEncode_of_accepted northEastCorner_accepted hyph s, rfl,
    northEastCorner_gidx hyph s, fun k h1 h10 => ?_⟩
  rw [respondOk_work, digitRow_encodeLevels _ _ hyph s h1 h10,
    digitCol_encodeLevels _ _ hyph s h1 h10]
  exact ⟨rowOf_of_north_edge hyph s rfl (k - 1), colOf_of_east_edge hyph s rfl (k - 1)⟩

/-- Settles O32: the latitude is checked before the longitude, each against its own bounds. -/
theorem rejectionExamples : Obligations.RejectionExamples := by
  unfold Obligations.RejectionExamples
  intro s hyph
  obtain ⟨-, -, hlatBelow, -, -, hlonAbove, -⟩ := encodeRangeChecks s hyph
  exact ⟨hlatBelow 0 80 (by norm_num),
    hlonAbove 20 150 (by norm_num) (by norm_num) (by norm_num)⟩

theorem regionCentre_accepted : Accepted (205 / 10) (815 / 10) := by norm_num [Accepted]

theorem regionCentre_gidx (hyph : Bool) (s : State) :
    (encodeLevels (205 / 10) (815 / 10) hyph LEVELS (startEncode s)).work.gidx =
      0x6CCCCCCCCC := by
  rw [encodeLevels_gidx_congr _ _ hyph false LEVELS s State.reset]
  decide +kernel

theorem regionCentre_window (hyph : Bool) (s : State) :
    encodeWindow (205 / 10) (815 / 10) hyph LEVELS s = cellAt (2 ^ 19 - 1) (2 ^ 19) := by
  rw [encodeWindow_congr _ _ hyph false LEVELS s State.reset]
  decide +kernel

/-- Settles O44: the numbers are those of any state, the code that of the default grid. -/
theorem centreOfTheRegionExample : Obligations.CentreOfTheRegionExample := by
  unfold Obligations.CentreOfTheRegionExample
  intro s hg
  obtain ⟨t, v, ht, hgidx, hv, hwindow⟩ := exec_decode_of_exec_encode regionCentre_accepted true hg
  obtain ⟨t', ht', hcode⟩ := codeSpellsTheGridIndex s _ _ true regionCentre_accepted
  cases ht.symm.trans ht'
  rw [regionCentre_gidx] at hgidx
  rw [regionCentre_window] at hwindow
  rw [hgidx] at hcode
  refine ⟨t, _, ht, hgidx, hv, rfl, ?_⟩
  simp only [respondOk_latC, respondOk_lonC, respondOk_latUdeg, respondOk_lonUdeg,
    respondOk_latStr, respondOk_lonStr, writeCentroid_latC, writeCentroid_lonC,
    writeCentroid_latUdeg, writeCentroid_lonUdeg, writeCentroid_latStr, writeCentroid_lonStr,
    hwindow]
  have hdefault : s.cfg.grid = gDefault → t.work.codeOut =
      [0x32, 0x4C, 0x4C, 0x2D, 0x4C, 0x4C, 0x4C, 0x2D, 0x4C, 0x4C, 0x4C, 0x4C] := by
    intro hgrid
    rw [hcode, hgrid]
    decide +kernel
  refine ⟨?_, ?_, ?_, ?_, ?_, ?_, ?_, ?_, ?_, hdefault⟩ <;> decide +kernel

/-- Settles O47: `'A'` stands in no admissible grid, and it is the first character. -/
theorem alphabetRejectionExample : Obligations.AlphabetRejectionExample := by
  unfold Obligations.AlphabetRejectionExample
  intro s hg
  have hA : inv s.cfg.grid 0x41 = none := inv_none_of_excluded hg (.inl rfl)
  have hstrip : strip triplesOfA = [] ++ 0x41 :: List.replicate 9 0x41 := by decide
  have hverdict : verdict s.cfg.grid triplesOfA = false := by
    refine Bool.eq_false_iff.mpr fun h => ?_
    obtain ⟨-, hsymbols⟩ := verdict_iff_validCode.mp h
    exact hsymbols 0x41 (by rw [hstrip]; exact List.mem_cons_self) hA
  obtain ⟨u, hu, -, hstatus, hinfo, -⟩ :=
    firstForeignCharacterReported s triplesOfA [] _ 0x41 hstrip (by decide) nofun hA
  exact ⟨_, u, execIsValid_eq triplesOfA s, hverdict, hu, hstatus, hinfo⟩

end Sys2Proof.Machine
end

section
/-! The endings of the three operations (60_exceptions R134). -/

namespace Sys2Proof.Machine

open Sys2Proof Sys2Proof.Claims

theorem execEncode_status (lat lon : CoordNum) (hyph : Bool) (s : State) :
    ∃ t, execEncode lat lon hyph s = .next t ∧ (t.res.status = 0 ∨ t.res.status = 1) := by
  cases hc : checkCoordinates lat lon with
  | error b => exact ⟨_, execEncode_of_check_error hyph s hc, .inr rfl⟩
  | ok p => exact ⟨_, execEncode_of_check_ok hyph s hc, .inl rfl⟩

theorem execDecode_status (code : List Ch) (s : State) :
    ∃ t, execDecode code s = .next t ∧
      (t.res.status = 0 ∨ t.res.status = 2 ∨ t.res.status = 3) := by
  obtain ⟨t, ht, hok, herror⟩ := execDecode_status_iff code s
  exact ⟨t, ht, (em (ValidCode s.cfg.grid code)).imp hok.mp herror.mp⟩

/-- Settles O52: each ending is met, those of ENCODE at the north-east corner and at a latitude that
is no number, those of DECODE at ten times one symbol, at the empty code and at a code of `'A'`s. -/
theorem endingsByOperation : Obligations.EndingsByOperation := by
  unfold Obligations.EndingsByOperation
  refine ⟨fun s lat lon hyph => execEncode_status lat lon hyph s,
    fun s code => execDecode_status code s,
    fun s code => ⟨_, execIsValid_eq code s, rfl⟩, fun s hg => ⟨?_, ?_, ?_, ?_, ?_⟩⟩
  · exact ⟨_, _, true, _, execEncode_of_accepted northEastCorner_accepted true s, rfl⟩
  · obtain ⟨hnonfinite, -⟩ := encodeRangeChecks s true
    exact ⟨.nonfinite, .nonfinite, true, _, hnonfinite .nonfinite, rfl⟩
  · obtain ⟨t, ht, -⟩ := execDecode_replicate hg 0 0
    exact ⟨_, _, ht, rfl⟩
  · obtain ⟨t, ht, -, hstatus, -⟩ := wrongLengthRaisesFormatError.2 s 0
    exact ⟨_, t, ht, hstatus⟩
  · obtain ⟨-, t, -, -, ht, hstatus, -⟩ := alphabetRejectionExample s hg
    exact ⟨triplesOfA, t, ht, hstatus⟩

end Sys2Proof.Machine
end

section
/-! Reset and waiting (70_reset R150), and the bounded end of every command (70_reset R157). -/

namespace Sys2Proof.Machine

open Sys2Proof

/-! ### `LEVEL` after a successful operation (10_state R17) -/

section
variable {s t : State}

theorem execEncode_level_of_ok {lat lon : CoordNum} {hyph : Bool}
    (h : execEncode lat lon hyph s = .next t) (hst : t.res.status = 0) : t.work.level = 10 := by
  cases hc : checkCoordinates lat lon with
  | error b =>
    rw [execEncode_of_check_error hyph s hc] at h
    cases h
    cases hst
  | ok p =>
    rw [execEncode_of_check_ok hyph s hc] at h
    cases h
    exact encodeLevels_level_ten p.1 p.2 hyph s

theorem execDecode_level_of_ok {code : List Ch} (h : execDecode code s = .next t)
    (hst : t.res.status = 0) : t.work.level = 10 := by
  obtain ⟨u, hu, hvalid, -⟩ := execDecode_status_iff code s
  cases h.symm.trans hu
  obtain ⟨v, hv, hlevel, -⟩ := execDecode_of_validCode (hvalid.mpr hst)
  cases h.symm.trans hv
  exact hlevel

/-- ISVALID has no levels; both other operations end on their tenth. -/
theorem exec_level_of_ok {i : Instr} (hi : decodeLatches s.latch = .ok i)
    (hx : exec i s = .next t) (hop : s.latch.op ≠ opIsValid) (hst : t.res.status = 0) :
    t.work.level = 10 := by
  rcases decodeFields_ok_cases hi with ⟨-, rfl⟩ | ⟨-, rfl⟩ | ⟨hisValid, -⟩
  · exact execEncode_level_of_ok hx hst
  · exact execDecode_level_of_ok hx hst
  · exact absurd hisValid hop

end

/-- Settles O53: the step in `BUSY` is an operation, and an operation ends in `DONE`. -/
theorem everyCommandEnds : Obligations.EveryCommandEnds := by
  unfold Obligations.EveryCommandEnds
  intro s hpin hrun hop
  obtain ⟨i, hi⟩ := decodeLatches_of_op_ne hop
  obtain ⟨t, ht, hdone, -, hlatch, -⟩ := exec_next i s
  rw [← hlatch] at hop
  exact ⟨t, (step_of_busy hpin hrun hi).trans ht, hdone, response_isSome hdone hop,
    fun hne => exec_level_of_ok hi ht (hlatch ▸ hne)⟩

/-! ### Reset, and waiting for a command (70_reset R150) -/

theorem step_of_reset {s : State} (hpin : s.host.resetPin = true) :
    step s = .next (assertReset s) := if_pos hpin

theorem step_of_idle_nil {s : State} (hpin : s.host.resetPin = false) (hrun : s.run = .idle)
    (hc : s.host.commands = []) : step s = .next s := by
  simp [step, hpin, hrun, hc]

/-- Settles O1: an idle unit has no response, and the step resets it or lets it wait. -/
theorem resetLeavesIdleAndWaits : Obligations.ResetLeavesIdleAndWaits := by
  unfold Obligations.ResetLeavesIdleAndWaits
  refine ⟨⟨rfl, response_of_idle rfl⟩, fun s hpin => ?_, fun s => step_of_idle_nil⟩
  exact ⟨assertReset s, step_of_reset hpin, assertReset_run s,
    response_of_idle (assertReset_run s), assertReset_cfg s, assertReset_host s⟩

end Sys2Proof.Machine
end
